-- ==== Sys2Proof/Word.lean ====
section
/-! DEFINITION. The character of the truss link: the one word the block exchanges with the outside. -/

namespace Sys2Proof

/-- One character of the truss link: eight data bits (R1). -/
abbrev Byte := BitVec 8

end Sys2Proof
end

