-- ==== Sys2Proof/Syntax.lean ====
section
/-! DEFINITION. The commands of the block: one constructor of `Instr` for each row of spec/opcode_table.json. -/

namespace Sys2Proof

/-- The two truss link ports (00_scope.md, section 1.3). -/
inductive Port where
  | a
  | b
deriving DecidableEq, Repr

/-- The two axes (00_scope.md, section 1.1). -/
inductive Axis where
  | pan
  | tilt
deriving DecidableEq, Repr

/-- The four emitters (00_scope.md, section 1.1). -/
inductive Emitter where
  | red
  | green
  | blue
  | white
deriving DecidableEq, Repr

/-- The two coils of a motor, each with its own bridge (08_axis_drive.md, section 8.5). -/
inductive Coil where
  | a
  | b
deriving DecidableEq, Repr

/-- A change of an index input (09_sensing_index_check_and_homing.md, section 9.2). -/
inductive Edge where
  | rise
  | fall
deriving DecidableEq, Repr

/-- The lanes that share one pair of ticks (R67): PAN and TILT, INTENSITY, the four colour lanes. -/
inductive LaneGroup where
  | position
  | intensity
  | colour
deriving DecidableEq, Repr

/-- A frame as the Link Interface hands it to a consumer (R10): the port it arrived on, its header fields, its
payload, and the instant of its end of reception on the local timebase, in thirds of a microsecond (R2, R37). -/
structure Frame where
  port : Port
  origin : Byte
  dest : Byte
  groups : Byte
  hops : Byte
  payload : List Byte
  ended : Nat
deriving DecidableEq, Repr

/-- The steps the block takes, in the order of the table; the docstring names the row. -/
inductive Instr where
  /-- CHARACTER_RECEIVED (R6): a character on a port's receive line, and whether its stop bit was found. -/
  | characterReceived (p : Port) (c : Byte) (stopBit : Bool)
  /-- FRAME_CLOSE (R2). -/
  | frameClose (p : Port)
  /-- PORT_SILENCE_TIMEOUT (R5). -/
  | portSilenceTimeout (p : Port)
  /-- CHOICE_POINT (R16). -/
  | choicePoint (p : Port)
  /-- RELAYED_FRAME_SENT (R16). -/
  | relayedFrameSent (p : Port)
  /-- OWN_FRAME_SENT (R20). -/
  | ownFrameSent (p : Port)
  /-- BEACON (R39). -/
  | beacon (f : Frame)
  /-- CATCH_UP_SLEW (R46). -/
  | catchUpSlew
  /-- HOLDOVER_ENTRY (R47). -/
  | holdoverEntry
  /-- HOLDOVER_TO_FREE (R47). -/
  | holdoverToFree
  /-- SEEK_TO_FREE (R47). -/
  | seekToFree
  /-- BEACON_TIMER (R49). -/
  | beaconTimer
  /-- PEER_AGE_OUT (R31) of the record of one station. -/
  | peerAgeOut (station : Byte)
  /-- FEED_PART_LAPSE (R32) of the record of one station. -/
  | feedPartLapse (station : Byte)
  /-- MATCH_PART_LAPSE (R32) of the record of one station. -/
  | matchPartLapse (station : Byte)
  /-- FEED_NOTE (R28). -/
  | feedNote (f : Frame)
  /-- MATCH_NOTE (R28). -/
  | matchNote (f : Frame)
  /-- STATUS_REPLY (R10). -/
  | statusReply (f : Frame)
  /-- CUE_LOAD (R55). -/
  | cueLoad (f : Frame)
  /-- CUE_CLEAR (R61). -/
  | cueClear (f : Frame)
  /-- PROTECT (R63). -/
  | protect (f : Frame)
  /-- CUE_GO (R72). -/
  | cueGo (f : Frame)
  /-- PENDING_GO_TICK (R74). -/
  | pendingGoTick
  /-- FOLLOW_TICK (R81). -/
  | followTick
  /-- LANE_TICK (R69) of the lanes that share the tick. -/
  | laneTick (g : LaneGroup)
  /-- CUE_RELEASE (R83). -/
  | cueRelease (f : Frame)
  /-- GATHER_CLOSE (R105). -/
  | gatherClose
  /-- MOVE_NOTE (R103). -/
  | moveNote (f : Frame)
  /-- EARLY_NOTE_LAPSE (R104) of one entry of the early note table. -/
  | earlyNoteLapse (entry : Fin 4)
  /-- DARK_START (R82). -/
  | darkStart
  /-- COLOUR_BOUNDARY (R112). -/
  | colourBoundary
  /-- NEXT_MATCH_TIME (R120). -/
  | nextMatchTime
  /-- EMITTER_PWM_PERIOD (R125). -/
  | emitterPwmPeriod
  /-- AXIS_BOUNDARY (R131) of one axis driver. -/
  | axisBoundary (x : Axis)
  /-- BRIDGE_PWM_PERIOD (R138). -/
  | bridgePwmPeriod
  /-- OVERCURRENT_EVENT (R140): the comparator of one coil's bridge fires. -/
  | overcurrentEvent (x : Axis) (c : Coil)
  /-- HOME_ASK (R157). -/
  | homeAsk (f : Frame)
  /-- SENSE_SCAN (R144): the raw values of the emitter temperature, driver temperature and feed current channels. -/
  | senseScan (emitterRaw driverRaw feedRaw : BitVec 12)
  /-- INDEX_EDGE (R148). -/
  | indexEdge (x : Axis) (e : Edge)
  /-- FEED_BOUNDARY (R164). -/
  | feedBoundary
  /-- SETTLE_END (R171). -/
  | settleEnd
  /-- TRIP_END (R172). -/
  | tripEnd
  /-- NEXT_NOTE_TIME (R168). -/
  | nextNoteTime
  /-- BRIDGE_ENABLE (R173). -/
  | bridgeEnable
  /-- SETUP (R178). -/
  | setup (f : Frame)
  /-- STATUS_ASK (R181). -/
  | statusAsk (f : Frame)
  /-- RESTART (R183). -/
  | restart (f : Frame)
  /-- RESET_LINE (R183). -/
  | resetLine
  /-- POWER_ON (R183). -/
  | powerOn
  /-- SETUP_READ_COMPLETE (R177). -/
  | setupReadComplete
  /-- RESET_LINE_HELD (R183). -/
  | resetLineHeld
deriving DecidableEq, Repr

end Sys2Proof
end

