-- ==== Sys2Proof/WellFormed.lean ====
section
/-! DEFINITION. Which commands the outside can send: the bounds the spec sets on a command's operands. -/

namespace Sys2Proof

/-- A payload is 0 to 48 bytes (01_the_truss_link.md, Frame format). -/
def Frame.payloadFits (f : Frame) : Bool :=
  f.payload.length ≤ 48

/-- Only a frame whose origin is 1 to 250 is accepted (R9). -/
def Frame.originIsStation (f : Frame) : Bool :=
  1 ≤ f.origin.toNat && f.origin.toNat ≤ 250

/-- A frame that can be handed to a consumer. -/
def Frame.wf (f : Frame) : Bool :=
  f.payloadFits && f.originIsStation

/-- A station number is 1 to 250 (R25). -/
def isStationNumber (n : Byte) : Bool :=
  1 ≤ n.toNat && n.toNat ≤ 250

/-- The commands the outside can send. -/
def Instr.wf : Instr → Bool
  | .characterReceived _ _ _ => true
  | .frameClose _ => true
  | .portSilenceTimeout _ => true
  | .choicePoint _ => true
  | .relayedFrameSent _ => true
  | .ownFrameSent _ => true
  | .beacon f => f.wf
  | .catchUpSlew => true
  | .holdoverEntry => true
  | .holdoverToFree => true
  | .seekToFree => true
  | .beaconTimer => true
  | .peerAgeOut n => isStationNumber n
  | .feedPartLapse n => isStationNumber n
  | .matchPartLapse n => isStationNumber n
  | .feedNote f => f.wf
  | .matchNote f => f.wf
  | .statusReply f => f.wf
  | .cueLoad f => f.wf
  | .cueClear f => f.wf
  | .protect f => f.wf
  | .cueGo f => f.wf
  | .pendingGoTick => true
  | .followTick => true
  | .laneTick _ => true
  | .cueRelease f => f.wf
  | .gatherClose => true
  | .moveNote f => f.wf
  | .earlyNoteLapse _ => true
  | .darkStart => true
  | .colourBoundary => true
  | .nextMatchTime => true
  | .emitterPwmPeriod => true
  | .axisBoundary _ => true
  | .bridgePwmPeriod => true
  | .overcurrentEvent _ _ => true
  | .homeAsk f => f.wf
  | .senseScan _ _ _ => true
  | .indexEdge _ _ => true
  | .feedBoundary => true
  | .settleEnd => true
  | .tripEnd => true
  | .nextNoteTime => true
  | .bridgeEnable => true
  | .setup f => f.wf
  | .statusAsk f => f.wf
  | .restart f => f.wf
  | .resetLine => true
  | .powerOn => true
  | .setupReadComplete => true
  | .resetLineHeld => true

end Sys2Proof
end

