-- ==== Sys2Proof/Decode.lean ====
section
/-! DEFINITION. The command a word of the opcode table spells. The table gives no row any bits ("fields": [] and no
"fixed" in every row), so no word spells a command (log 8). -/

namespace Sys2Proof

/-- The command the word `w` of `nbits` bits spells by the table's bits: none, since the table gives bits to no row. -/
def decodeTableWord (_nbits _w : Nat) : Option Instr :=
  none

end Sys2Proof
end

