-- ==== Sys2Proof/Config.lean ====
section
/-! DEFINITION. What a part fixes and the spec does not: the free values of the model. -/

namespace Sys2Proof.Config

/-- The eight serial bytes a part leaves the factory with, first byte first (R176: "factory-set, read only").
The spec gives no value, so nothing constrains it (log 6). -/
opaque factorySerial : Fin 8 → Byte

/-- What a field of `size` bytes of a status page holds when the value it reports does not fit it. R182 gives the sizes
and no result there, so nothing constrains it (log 28). -/
opaque overlongField (size : Nat) (value : Int) : Nat

end Sys2Proof.Config
end

