-- ==== Sys2Proof/Machine/Types.lean ====
section
/-! DEFINITION. The records the state is made of, block by block, as the tables of the spec list their fields. -/

namespace Sys2Proof.Machine

/-! ### Things kept for each port, axis and emitter -/

/-- One value for each port. -/
structure PerPort (α : Type) where
  a : α
  b : α
deriving DecidableEq, Repr

/-- The value of one port. -/
def PerPort.get {α : Type} (v : PerPort α) : Port → α
  | .a => v.a
  | .b => v.b

/-- `v` with the value of one port replaced. -/
def PerPort.set {α : Type} (v : PerPort α) (p : Port) (x : α) : PerPort α :=
  match p with
  | .a => { v with a := x }
  | .b => { v with b := x }

/-- One value for each axis. -/
structure PerAxis (α : Type) where
  pan : α
  tilt : α
deriving DecidableEq, Repr

/-- The value of one axis. -/
def PerAxis.get {α : Type} (v : PerAxis α) : Axis → α
  | .pan => v.pan
  | .tilt => v.tilt

/-- `v` with the value of one axis replaced. -/
def PerAxis.set {α : Type} (v : PerAxis α) (x : Axis) (y : α) : PerAxis α :=
  match x with
  | .pan => { v with pan := y }
  | .tilt => { v with tilt := y }

/-- One value for each emitter. -/
structure PerEmitter (α : Type) where
  red : α
  green : α
  blue : α
  white : α
deriving DecidableEq, Repr

/-- The value of one emitter. -/
def PerEmitter.get {α : Type} (v : PerEmitter α) : Emitter → α
  | .red => v.red
  | .green => v.green
  | .blue => v.blue
  | .white => v.white

/-- The values a function gives to the four emitters. -/
def PerEmitter.of {α : Type} (f : Emitter → α) : PerEmitter α :=
  { red := f .red, green := f .green, blue := f .blue, white := f .white }

/-! ### Link Interface -/

/-- The states of a receive assembler (R6). -/
inductive AsmState where
  | idle
  | header
  | body
  | discard
deriving DecidableEq, Repr

/-- A port's receive assembler (R6). -/
structure Assembler where
  state : AsmState
  /-- The characters stored, the lead first. -/
  bytes : List Byte
  /-- How many characters of the frame in progress have arrived, stored or not. -/
  count : Nat
  /-- A framing error occurred in one of them (R1). -/
  framingError : Bool
  /-- The hop limit stopped the relay copy at the header point (R11). -/
  hopStopped : Bool
  /-- The end of the last character's stop bit, in thirds of a µs of the local timebase (R2). -/
  lastEnd : Nat
deriving DecidableEq, Repr

/-- A committed frame of a relay FIFO: its bytes as received and its end-of-reception instant (R12). -/
structure RelayFrame where
  bytes : List Byte
  ended : Nat
deriving DecidableEq, Repr

/-- The relay FIFO of an outgoing port (R12). The backup and write pointers follow from the frames held
(`RelayFifo.backupPtr`, `RelayFifo.writePtr`). -/
structure RelayFifo where
  readPtr : Nat
  committed : List RelayFrame
  copy : Option (List Byte)
deriving DecidableEq, Repr

/-- The five classes of the outbox (R17). -/
inductive FrameClass where
  | beacon
  | moveNote
  | feedNote
  | matchNote
  | statusReply
deriving DecidableEq, Repr

/-- What a transmission carries: the oldest committed relayed frame, or an entry of the outbox, whose present content
it carries until the entry is replaced (R18). -/
inductive TxSource where
  | relayed
  | own (c : FrameClass) (present : Bool)
deriving DecidableEq, Repr

/-- A transmission under way: the bytes as they leave and the instant of its start, in thirds of a µs. -/
structure Transmission where
  source : TxSource
  bytes : List Byte
  started : Nat
deriving DecidableEq, Repr

/-- What a transmit line carries for the length of one bit, a third of a µs: nothing, or one of the ten bits of a character
(R1). The voltage of each is electrical, and the data sheet's (00_scope.md, section 3). -/
inductive LineBit where
  | idle
  | start
  | data (bit : Bool)
  | stop
deriving DecidableEq, Repr

/-- A port's transmitter (R16). -/
structure Transmitter where
  current : Option Transmission
  /-- When its last frame ended; absent until it has sent one. -/
  lastEnded : Option Nat
  /-- The previous frame it sent was an own frame sent ahead of a committed relayed frame. -/
  sentAhead : Bool
deriving DecidableEq, Repr

/-- One port of the Link Interface (R4, R6, R12, R16). -/
structure PortState where
  up : Bool
  /-- The uptime at which the receive line last delivered a character. -/
  lastChar : Nat
  asm : Assembler
  fifo : RelayFifo
  tx : Transmitter
deriving DecidableEq, Repr

/-- An entry of the outbox (R17): the frame as its sender built it, and the sets of ports. -/
structure Entry where
  dest : Byte
  payload : List Byte
  entryTime : Nat
  waited : PerPort Bool
  send : PerPort Bool
  sent : PerPort Bool
deriving DecidableEq, Repr

/-- The slot of one class, and when its last entry was freed (R17). -/
structure Slot where
  entry : Option Entry
  lastFreed : Option Nat
deriving DecidableEq, Repr

/-- The outbox (R17). -/
structure Outbox where
  beacon : Slot
  moveNote : Slot
  feedNote : Slot
  matchNote : Slot
  statusReply : Slot
deriving DecidableEq, Repr

/-- The slot of one class. -/
def Outbox.get (o : Outbox) : FrameClass → Slot
  | .beacon => o.beacon
  | .moveNote => o.moveNote
  | .feedNote => o.feedNote
  | .matchNote => o.matchNote
  | .statusReply => o.statusReply

/-- `o` with the slot of one class replaced. -/
def Outbox.set (o : Outbox) (c : FrameClass) (x : Slot) : Outbox :=
  match c with
  | .beacon => { o with beacon := x }
  | .moveNote => { o with moveNote := x }
  | .feedNote => { o with feedNote := x }
  | .matchNote => { o with matchNote := x }
  | .statusReply => { o with statusReply := x }

/-! ### Show Clock -/

/-- The clock states (R38). -/
inductive ClockMode where
  | free
  | seek
  | locked
  | holdover
deriving DecidableEq, Repr

/-- The Show Clock's state (R36 to R38). -/
structure Clock where
  /-- The local timebase, in thirds of a microsecond (R37, log 1). -/
  thirds : Nat
  mode : ClockMode
  epoch : Nat
  ms : Nat
  us : Nat
  consecutive : Nat
  disagreement : Nat
  catchUp : Nat
  lastBeacon : Option Nat
  holdoverEntry : Option Nat
  nextBeacon : Option Nat
  /-- The model's own (log 15): the uptime at which the clock last slewed. -/
  slewedAt : Nat
deriving DecidableEq, Repr

/-- For each consumer of lanes, the ticks of the boundaries that have occurred and that it has not yet taken, the oldest
first, and the epoch they were marked in (R50). A boundary marks every consumer, and an adoption takes every mark into its
epoch (log 16), so that one epoch serves them all. -/
structure Marks where
  epoch : Nat
  playback : List Int
  axes : PerAxis (List Int)
  colour : List Int
  feed : List Int
deriving DecidableEq, Repr

/-! ### Peer Table -/

/-- What a station said it is (R25). -/
inductive PeerKind where
  | fixture
  | cueSource
deriving DecidableEq, Repr

/-- From a peer's last BEACON (R25). -/
structure BeaconPart where
  mode : ClockMode
  epoch : Nat
  interval : Nat
deriving DecidableEq, Repr

/-- From a peer's last FEED-NOTE (R25). -/
structure FeedPart where
  circuit : Nat
  claim : Nat
  tripped : Bool
  refreshed : Nat
deriving DecidableEq, Repr

/-- From a peer's last MATCH-NOTE (R25). -/
structure MatchPart where
  group : Nat
  ceilings : PerEmitter Nat
  outOfMatch : Bool
  pulled : Bool
  refreshed : Nat
deriving DecidableEq, Repr

/-- A peer record (R25). -/
structure PeerRecord where
  station : Nat
  kind : PeerKind
  groups : Byte
  heard : PerPort Bool
  leastHops : Nat
  lastHeard : Nat
  beaconPart : Option BeaconPart
  feedPart : Option FeedPart
  matchPart : Option MatchPart
deriving DecidableEq, Repr

/-! ### Cue Store -/

/-- The position part of a cue (R54). -/
structure PosPart where
  target : PerAxis Nat
  moveMs : Nat
  moveGroup : Nat
  dark : Bool
deriving DecidableEq, Repr

/-- The colour part of a cue (R54). -/
structure ColPart where
  levels : PerEmitter Nat
  ms : Nat
deriving DecidableEq, Repr

/-- The intensity part of a cue (R54). -/
structure IntPart where
  level : Nat
  ms : Nat
deriving DecidableEq, Repr

/-- A cue record (R54). -/
structure Cue where
  number : Nat
  pos : Option PosPart
  col : Option ColPart
  int : Option IntPart
  delay : Nat
  follow : Option Nat
deriving DecidableEq, Repr

/-- Why a request was refused (R64). -/
inductive RefusalKind where
  | badNumber
  | empty
  | isProtected
  | full
  | lineDown
  | noCue
deriving DecidableEq, Repr

/-- The last refusal record (R64). -/
structure RefusalRecord where
  kind : RefusalKind
  cue : Nat
  origin : Nat
deriving DecidableEq, Repr

/-- The Cue Store's state (R53, R63, R64). -/
structure CueStore where
  cues : List Cue
  line : Nat
  refusal : Option RefusalRecord
deriving DecidableEq, Repr

/-! ### Playback Unit -/

/-- What a waiting lane waits for (R67). -/
inductive WaitCause where
  | delay
  | gather
  | dark
deriving DecidableEq, Repr

/-- A lane's state, with its wait cause in WAIT only (R67). -/
inductive LaneState where
  | hold
  | wait (c : WaitCause)
  | fade
deriving DecidableEq, Repr

/-- The state and ticks that lanes set together share (R67). -/
structure Timing where
  state : LaneState
  startTick : Int
  endTick : Option Int
deriving DecidableEq, Repr

/-- The position lanes PAN and TILT, which "share one state, one wait cause, one pair of ticks and one plan length" (R67). -/
structure PosLanes where
  timing : Timing
  start : PerAxis Int
  target : PerAxis Int
  plan : Option Nat
  moveMs : Nat
deriving DecidableEq, Repr

/-- The INTENSITY lane (R67). -/
structure LevelLane where
  timing : Timing
  start : Nat
  target : Nat
deriving DecidableEq, Repr

/-- The four colour lanes, which share their ticks (R67). -/
structure ColourLanes where
  timing : Timing
  start : PerEmitter Nat
  target : PerEmitter Nat
deriving DecidableEq, Repr

/-- The pending GO (R70). -/
structure PendingGo where
  cueField : Nat
  tick : Int
  origin : Nat
deriving DecidableEq, Repr

/-- The last-taken GO (R70). -/
structure LastGo where
  cueField : Nat
  resolved : Nat
  tick : Int
deriving DecidableEq, Repr

/-- The follow timer (R70). -/
structure FollowTimer where
  tick : Int
  source : Nat
deriving DecidableEq, Repr

/-- The gather record (R100). -/
structure Gather where
  group : Nat
  cue : Nat
  goTick : Int
  closeTick : Int
  ownPlan : Nat
  ownEnd : Int
  groupEnd : Int
  notes : Nat
deriving DecidableEq, Repr

/-- The finished gather record (R100). -/
structure FinishedGather where
  group : Nat
  cue : Nat
  goTick : Int
deriving DecidableEq, Repr

/-- An entry of the early note table (R104). -/
structure EarlyNote where
  group : Nat
  cue : Nat
  goTick : Int
  proposedEnd : Int
  setAt : Nat
deriving DecidableEq, Repr

/-- The Playback Unit's lanes and records (R67, R70, R100). -/
structure Playback where
  pos : PosLanes
  intensity : LevelLane
  colour : ColourLanes
  pendingGo : Option PendingGo
  lastGo : Option LastGo
  follow : Option FollowTimer
  lastRelease : Option Int
  gather : Option Gather
  finished : Option FinishedGather
  early : List EarlyNote
deriving DecidableEq, Repr

/-! ### Colour Renderer -/

/-- What the renderer holds for one emitter (R111, R125). -/
structure EmitterState where
  achievable : Nat
  target : Nat
  rendered : Nat
  unpulled : Nat
  duty : Nat
  base : Nat
  frac : Nat
  preload : Nat
  running : Nat
deriving DecidableEq, Repr

/-- What a MATCH-NOTE announces (R119). -/
structure Announcement where
  group : Nat
  outOfMatch : Bool
  pulled : Bool
  ceilings : PerEmitter Nat
deriving DecidableEq, Repr

/-- The Colour Renderer's state (R111). -/
structure Colour where
  derate : Nat
  announced : Bool
  pulledSince : Option Nat
  unpulledSince : Option Nat
  pAnn : Nat
  outOfMatch : Bool
  emitters : PerEmitter EmitterState
  lastAnnounced : Option Announcement
  nextMatch : Option Nat
  /-- The model's own (log 37): the next match time was reached when another placement moved it on, and its own MATCH-NOTE
  is still to be placed (R126). -/
  noteOwed : Bool
  /-- The instant of the boundary that set the dither schedules, in thirds of a µs (R124). -/
  scheduleAt : Nat
  /-- How many PWM periods have started under the schedules. -/
  periodsStarted : Nat
  /-- When the next emitter PWM period starts, in µs of the local timebase (R125, log 10). -/
  nextPeriod : Nat
deriving DecidableEq, Repr

/-! ### Axis drivers, index check and homing -/

/-- The homing phases (R128). -/
inductive Phase where
  | seek
  | backoff
  | approach
  | set
  | returning
deriving DecidableEq, Repr

/-- The axis modes, with the homing phase in HOMING only (R128, R129); `returning` is the phase RETURN. -/
inductive AxisMode where
  | unsure
  | homing (p : Phase)
  | ready
  | failed
  | tripped
deriving DecidableEq, Repr

/-- The walk of the output microstep (R136). -/
structure Walk where
  origin : Int
  target : Int
  walked : Nat
deriving DecidableEq, Repr

/-- A duty and a drive direction of a bridge (R138). -/
structure Drive where
  duty : Nat
  negative : Bool
deriving DecidableEq, Repr

/-- One bridge: what the next PWM period takes and what the present one runs with (R138). -/
structure Bridge where
  preload : Drive
  running : Drive
deriving DecidableEq, Repr

/-- The causes of a home request (R153). -/
inductive HomeCause where
  | start
  | ask
  | slip
deriving DecidableEq, Repr

/-- The outcomes of a captured edge (R148). -/
inductive CaptureOutcome where
  | corrected
  | slip
  | vaneFault
  | held
  | phase
  | ignored
deriving DecidableEq, Repr

/-- The last capture record (R148). -/
structure Capture where
  edge : Edge
  negative : Bool
  microstep : Int
  deviation : Int
  mode : AxisMode
  outcome : CaptureOutcome
deriving DecidableEq, Repr

/-- The pass record (R149). -/
structure Pass where
  negative : Bool
  microstep : Int
  deviation : Int
deriving DecidableEq, Repr

/-- One axis driver with its index check and homing (R128, R148 to R155). -/
structure AxisState where
  mode : AxisMode
  pos16 : Int
  v16 : Int
  output : Int
  walk : Walk
  /-- The axis current; absent is "none". -/
  current : Option Nat
  running : Bool
  lag : Option Nat
  bridgeEnable : Bool
  /-- The bridges are driven, as of the last PWM period start (R130, R141). -/
  live : Bool
  coilA : Bridge
  coilB : Bridge
  capture : Option Capture
  pass : Option Pass
  slipPending : Bool
  request : Option HomeCause
  phaseEntry : Int
  reference : Option Int
deriving DecidableEq, Repr

/-! ### Sense Unit -/

/-- The Sense Unit's held values (R144), and the uptime of its next scan. -/
structure Sense where
  emitterTemp : Int
  driverTemp : Int
  feedCurrent : Nat
  tripScans : Nat
  nextScan : Nat
deriving DecidableEq, Repr

/-! ### Feed Share Unit -/

/-- A raise that is settling: the claim before it and when it settles (R163). -/
structure Settling where
  claim : Nat
  endTime : Nat
deriving DecidableEq, Repr

/-- Whether the first FEED-NOTE's slot is still awaited (R173). -/
inductive Enabling where
  /-- The unit has not started. -/
  | notStarted
  /-- The first FEED-NOTE is placed and its slot has not been freed. -/
  | waiting
  /-- The slot has been freed, or there is nothing to wait for: bridge enable is to be set. -/
  | due
  /-- Bridge enable has been set. -/
  | done
deriving DecidableEq, Repr

/-- The Feed Share Unit's state (R163). `settling` present is the raise state SETTLING; `tripEnd` present is TRIPPED. -/
structure Feed where
  started : Bool
  demand : Nat
  emitterDemand : Nat
  /-- The axes whose run current the demand counted (R164, R167 step 3). -/
  counted : PerAxis Bool
  claim : Nat
  usage : Nat
  allowance : Nat
  settling : Option Settling
  belowSince : Option Nat
  tripEnd : Option Nat
  pull : Nat
  grant : PerAxis Nat
  driverHot : Bool
  nextNote : Option Nat
  /-- The model's own (log 37): the next note time was reached when another placement moved it on, and its own FEED-NOTE is
  still to be placed (R174). -/
  noteOwed : Bool
  enabling : Enabling
deriving DecidableEq, Repr

/-! ### Setup Store -/

/-- The values of the setup record kept for one axis, as the blocks have corrected them
(R93, R137, R138, R130, R147, R162). -/
structure AxisSettings where
  vmax : Nat
  accel : Nat
  accelHold : Nat
  softLow : Nat
  softHigh : Nat
  park : Nat
  runCurrent : Nat
  holdCurrent : Nat
  fullScale : Nat
  isReversed : Bool
  brake : Bool
  risePos : Nat
  fallPos : Nat
  slipTolerance : Nat
  vaneTolerance : Nat
  homingSpeed : Nat
  rehomeInDark : Bool
deriving DecidableEq, Repr

/-- An entry of the derating table (R110). -/
structure DeratingEntry where
  threshold : Int
  derate : Nat
deriving DecidableEq, Repr

/-- The values of the setup record in force, as the blocks have corrected them (R176, R177). -/
structure Settings where
  station : Nat
  groups : Byte
  hopLimit : Nat
  lockCount : Nat
  /-- In ms: the field is in units of 10 ms (R38). -/
  beaconInterval : Nat
  countingDefault : Bool
  gatherWindow : Nat
  matchGroup : Nat
  matchFloor : Nat
  circuit : Nat
  deadtime : Nat
  noteInterval : Nat
  standby : Nat
  limit : Nat
  floorShare : Nat
  tripLevel : Nat
  driverLimit : Int
  fullDrive : PerEmitter Nat
  axes : PerAxis AxisSettings
  fullOutput : PerEmitter Nat
  activeLow : PerEmitter Bool
  derating : List DeratingEntry
deriving DecidableEq, Repr

/-- The Setup Store's own state (R177, R180, R181). -/
structure Setup where
  readDone : Bool
  configured : Bool
  counting : Bool
  nextPart0 : Nat
  nextPart1 : Nat
  nextPart2 : Nat
deriving DecidableEq, Repr

/-! ### Pins -/

/-- The input pins (00_scope.md, section 1.4): what the outside drives. A device reset does not touch them. -/
structure Pins where
  resetHeld : Bool
  setupLine : Bool
  /-- When the start bit of the character last begun on each receive line began, in thirds of a µs of the local timebase;
  absent with none seen (R1, R2, log 35). -/
  startBit : PerPort (Option Nat)
  /-- The index input reads FLAG. -/
  index : PerAxis Bool
  emitterRaw : BitVec 12
  driverRaw : BitVec 12
  feedRaw : BitVec 12
deriving DecidableEq, Repr

/-! ### Statistics -/

/-- The link counters of one port (R22). -/
structure PortStats where
  framesIn : Nat
  checkFailures : Nat
  ownEchoes : Nat
  badSize : Nat
  hopLimited : Nat
  relayFull : Nat
  relayFlushed : Nat
  framesRelayed : Nat
  ownFramesOut : Nat
deriving DecidableEq, Repr

/-- The clock counters (R52). -/
structure ClockStats where
  taken : Nat
  unusable : Nat
  olderEpoch : Nat
  adoptions : Nat
  steps : Nat
  holdovers : Nat
  losses : Nat
deriving DecidableEq, Repr

/-- The Peer Table counters (R35). -/
structure PeerStats where
  tableFull : Nat
  replaced : Nat
  agedOut : Nat
deriving DecidableEq, Repr

/-- The Cue Store counters (R66). -/
structure CueStats where
  inserted : Nat
  replaced : Nat
  clamped : Nat
  removed : Nat
  refusals : Nat
deriving DecidableEq, Repr

/-- The playback counters (R92). -/
structure PlayStats where
  gosTaken : Nat
  lateGos : Nat
  unsynced : Nat
  duplicates : Nat
  pendingReplaced : Nat
  followsTaken : Nat
  releasesTaken : Nat
  rebases : Nat
  gathersCancelledByRebase : Nat
deriving DecidableEq, Repr

/-- The planning counters (R109). -/
structure PlanStats where
  stretched : Nat
  gathersOpened : Nat
  gathersClosed : Nat
  gathersLengthened : Nat
  gathersCapped : Nat
  gathersCancelled : Nat
  notesMatched : Nat
  earlyNotes : Nat
  earlyNotesLost : Nat
  lateNotes : Nat
deriving DecidableEq, Repr

/-- The colour counters (R127). -/
structure ColourStats where
  pullAnnouncements : Nat
  outOfMatchEntries : Nat
  ceilingCuts : Nat
  matchNotesPlaced : Nat
deriving DecidableEq, Repr

/-- The counters of one axis (R143, R161). -/
structure AxisStats where
  bridgeTrips : Nat
  corrections : Nat
  slips : Nat
  vaneFaults : Nat
  homesBegun : Nat
  homesCompleted : Nat
  homingFailures : Nat
  homeAsksIgnored : Nat
deriving DecidableEq, Repr

/-- The feed counters (R175). -/
structure FeedStats where
  raises : Nat
  raisesCut : Nat
  lowers : Nat
  feedTrips : Nat
  notesPlaced : Nat
  driverHotEntries : Nat
deriving DecidableEq, Repr

/-- The setup counters (R178). -/
structure SetupStats where
  written : Nat
  ignored : Nat
deriving DecidableEq, Repr

/-- Every statistics counter of the part; each is 16 bits wide and saturates (00_scope.md, section 4.3). -/
structure Stats where
  ports : PerPort PortStats
  clock : ClockStats
  peers : PeerStats
  cues : CueStats
  play : PlayStats
  plan : PlanStats
  colour : ColourStats
  axes : PerAxis AxisStats
  feed : FeedStats
  setup : SetupStats
deriving DecidableEq, Repr

end Sys2Proof.Machine
end

