-- ==== Sys2Proof/Machine/Initial.lean ====
section
/-! DEFINITION. The values each block has after a device reset, as functions of the settings in force (R177), and the
setup defaults (R176). -/

namespace Sys2Proof.Machine

/-- `x` brought within `lo..hi` (00_scope.md, section 4.3). -/
def clampNat (lo hi x : Nat) : Nat :=
  if x < lo then lo else if hi < x then hi else x

/-- `x` brought within `lo..hi` (00_scope.md, section 4.3). -/
def clampInt (lo hi x : Int) : Int :=
  if x < lo then lo else if hi < x then hi else x

/-- The axis travel, in counts (R128). -/
def travel : Axis → Nat
  | .pan => 54000
  | .tilt => 27000

/-- The same value for each of two axes. -/
def bothAxes {α : Type} (x : α) : PerAxis α :=
  { pan := x, tilt := x }

/-- The same value for each of two ports. -/
def bothPorts {α : Type} (x : α) : PerPort α :=
  { a := x, b := x }

/-! ### Setup defaults (R176) -/

/-- The default axis settings of pages 2 and 3. -/
def AxisSettings.default (x : Axis) : AxisSettings :=
  { vmax := 120, accel := 96, accelHold := 24, softLow := 0, softHigh := travel x,
    park := (match x with
      | .pan => 27000
      | .tilt => 13500),
    runCurrent := 120, holdCurrent := 40, fullScale := 200, isReversed := false, brake := false,
    risePos := 1000, fallPos := 1600, slipTolerance := 8, vaneTolerance := 6, homingSpeed := 40, rehomeInDark := true }

/-- The defaults of R176, which every block takes until the record has been read, and an unconfigured station keeps
(R177). -/
def Settings.default : Settings :=
  { station := 0, groups := 0, hopLimit := 32, lockCount := 3, beaconInterval := 100, countingDefault := true,
    gatherWindow := 24, matchGroup := 0, matchFloor := 500, circuit := 0, deadtime := 20, noteInterval := 50,
    standby := 70, limit := 1000, floorShare := 200, tripLevel := 4000, driverLimit := 100,
    fullDrive := PerEmitter.of fun _ => 300,
    axes := { pan := AxisSettings.default .pan, tilt := AxisSettings.default .tilt },
    fullOutput := PerEmitter.of fun _ => 20000,
    activeLow := PerEmitter.of fun _ => false,
    derating := List.replicate 8 { threshold := 125, derate := 1000 } }

/-- The base: the standby current plus the hold currents of both axes (R162). -/
def Settings.base (st : Settings) : Nat :=
  st.standby + st.axes.pan.holdCurrent + st.axes.tilt.holdCurrent

/-! ### Link Interface after a device reset -/

/-- A receive assembler in IDLE with no frame in progress (R6). -/
def Assembler.initial : Assembler :=
  { state := .idle, bytes := [], count := 0, framingError := false, hopStopped := false, lastEnd := 0 }

/-- An empty relay FIFO, its pointers at the start of the store (R12). -/
def RelayFifo.initial : RelayFifo :=
  { readPtr := 0, committed := [], copy := none }

/-- A transmitter with its line idle (R16). -/
def Transmitter.initial : Transmitter :=
  { current := none, lastEnded := none, sentAhead := false }

/-- A port after a device reset: DOWN, its silence time starting at uptime 0 (R4). -/
def PortState.initial : PortState :=
  { up := false, lastChar := 0, asm := Assembler.initial, fifo := RelayFifo.initial, tx := Transmitter.initial }

/-- An empty slot of a class with no last-freed time (R17). -/
def Slot.initial : Slot :=
  { entry := none, lastFreed := none }

/-- The outbox after a device reset (R17). -/
def Outbox.initial : Outbox :=
  { beacon := Slot.initial, moveNote := Slot.initial, feedNote := Slot.initial, matchNote := Slot.initial,
    statusReply := Slot.initial }

/-! ### Show Clock after a device reset -/

/-- FREE at epoch 0 and show time 0 (R36, R38). -/
def Clock.initial : Clock :=
  { thirds := 0, mode := .free, epoch := 0, ms := 0, us := 0, consecutive := 0, disagreement := 0, catchUp := 0,
    lastBeacon := none, holdoverEntry := none, nextBeacon := none, slewedAt := 0 }

/-- No boundary has occurred: "Show time 0.000 ms itself is the reset instant and does not occur as a boundary" (R50). -/
def Marks.initial : Marks :=
  { epoch := 0, playback := [], axes := bothAxes [], colour := [], feed := [] }

/-! ### Cue Store and Playback Unit after a device reset -/

/-- An empty list, the line at 0, no refusal (R53, R63, R64). -/
def CueStore.initial : CueStore :=
  { cues := [], line := 0, refusal := none }

/-- HOLD with both ticks 0 (R67). -/
def Timing.initial : Timing :=
  { state := .hold, startTick := 0, endTick := some 0 }

/-- The park position of an axis, brought within its soft limits: a device reset's lanes hold it (R67). A release takes park
as setup gives it, and the Move Planner clamps it (R84, R94). -/
def AxisSettings.parked (a : AxisSettings) : Int :=
  (clampNat a.softLow a.softHigh a.park : Nat)

/-- PAN and TILT held at park (R67). -/
def PosLanes.initial (st : Settings) : PosLanes :=
  let park : PerAxis Int := { pan := st.axes.pan.parked, tilt := st.axes.tilt.parked }
  { timing := Timing.initial, start := park, target := park, plan := some 0, moveMs := 0 }

/-- The lanes and records after a device reset (R67, R70, R100). -/
def Playback.initial (st : Settings) : Playback :=
  { pos := PosLanes.initial st,
    intensity := { timing := Timing.initial, start := 0, target := 0 },
    colour := { timing := Timing.initial, start := PerEmitter.of fun _ => 0, target := PerEmitter.of fun _ => 0 },
    pendingGo := none, lastGo := none, follow := none, lastRelease := none, gather := none, finished := none,
    early := [] }

/-! ### Colour Renderer after a device reset -/

/-- An emitter that assumes it is cool and not pulled, with its duty at 0 (R111). -/
def EmitterState.initial (full : Nat) : EmitterState :=
  { achievable := full, target := full, rendered := full, unpulled := 0, duty := 0, base := 0, frac := 0, preload := 0,
    running := 0 }

/-- The renderer after a device reset (R111). -/
def Colour.initial (st : Settings) : Colour :=
  { derate := 1000, announced := false, pulledSince := none, unpulledSince := none, pAnn := 1000, outOfMatch := false,
    emitters := PerEmitter.of fun e => EmitterState.initial (st.fullOutput.get e),
    lastAnnounced := none, nextMatch := none, noteOwed := false, scheduleAt := 0, periodsStarted := 0, nextPeriod := 250 }

/-! ### Axis drivers and Sense Unit after a device reset -/

/-- A bridge whose preload and running duty are 0. -/
def Bridge.idle : Bridge :=
  { preload := { duty := 0, negative := false }, running := { duty := 0, negative := false } }

/-- An axis driver after a device reset (R128), with its START request (R153). DESIGN CHOICE: the phase entry position is 0
and the reference capture absent (log 21). -/
def AxisState.initial : AxisState :=
  { mode := .unsure, pos16 := 0, v16 := 0, output := 0, walk := { origin := 0, target := 0, walked := 100 },
    current := none, running := false, lag := none, bridgeEnable := false, live := false, coilA := Bridge.idle,
    coilB := Bridge.idle, capture := none, pass := none, slipPending := false, request := some .start, phaseEntry := 0,
    reference := none }

/-- The Sense Unit after a device reset, its first scan due at uptime 5 ms (R144). -/
def Sense.initial : Sense :=
  { emitterTemp := 0, driverTemp := 0, feedCurrent := 0, tripScans := 0, nextScan := 5 }

/-! ### Feed Share Unit and Setup Store after a device reset -/

/-- The Feed Share Unit after a device reset (R163). -/
def Feed.initial (st : Settings) : Feed :=
  { started := false, demand := st.base, emitterDemand := 0, counted := bothAxes false, claim := st.base,
    usage := st.base, allowance := st.limit, settling := none, belowSince := none, tripEnd := none, pull := 1000,
    grant := { pan := st.axes.pan.holdCurrent, tilt := st.axes.tilt.holdCurrent },
    driverHot := false, nextNote := none, noteOwed := false, enabling := .notStarted }

/-- The Setup Store before the record has been read, counting by the statistics enable default (R177, R180). -/
def Setup.initial (st : Settings) : Setup :=
  { readDone := false, configured := false, counting := st.countingDefault, nextPart0 := 0, nextPart1 := 0,
    nextPart2 := 0 }

/-! ### Pins and statistics -/

/-- The pins as the model first finds them (log 5, log 29): nothing held, no start bit seen, both index inputs CLEAR, raw
levels 0. -/
def Pins.initial : Pins :=
  { resetHeld := false, setupLine := false, startBit := bothPorts none, index := bothAxes false, emitterRaw := 0,
    driverRaw := 0, feedRaw := 0 }

/-- Every link counter 0 (R22). -/
def PortStats.zero : PortStats :=
  { framesIn := 0, checkFailures := 0, ownEchoes := 0, badSize := 0, hopLimited := 0, relayFull := 0, relayFlushed := 0,
    framesRelayed := 0, ownFramesOut := 0 }

/-- Every counter of an axis 0 (R143, R161). -/
def AxisStats.zero : AxisStats :=
  { bridgeTrips := 0, corrections := 0, slips := 0, vaneFaults := 0, homesBegun := 0, homesCompleted := 0,
    homingFailures := 0, homeAsksIgnored := 0 }

/-- Every statistics counter of the part 0, as after a device reset or a CLEAR (R180). -/
def Stats.zero : Stats :=
  { ports := bothPorts PortStats.zero,
    clock := { taken := 0, unusable := 0, olderEpoch := 0, adoptions := 0, steps := 0, holdovers := 0, losses := 0 },
    peers := { tableFull := 0, replaced := 0, agedOut := 0 },
    cues := { inserted := 0, replaced := 0, clamped := 0, removed := 0, refusals := 0 },
    play := { gosTaken := 0, lateGos := 0, unsynced := 0, duplicates := 0, pendingReplaced := 0, followsTaken := 0,
              releasesTaken := 0, rebases := 0, gathersCancelledByRebase := 0 },
    plan := { stretched := 0, gathersOpened := 0, gathersClosed := 0, gathersLengthened := 0, gathersCapped := 0,
              gathersCancelled := 0, notesMatched := 0, earlyNotes := 0, earlyNotesLost := 0, lateNotes := 0 },
    colour := { pullAnnouncements := 0, outOfMatchEntries := 0, ceilingCuts := 0, matchNotesPlaced := 0 },
    axes := bothAxes AxisStats.zero,
    feed := { raises := 0, raisesCut := 0, lowers := 0, feedTrips := 0, notesPlaced := 0, driverHotEntries := 0 },
    setup := { written := 0, ignored := 0 } }

end Sys2Proof.Machine
end

