-- ==== Sys2Proof/Machine/State.lean ====
section
/-! DEFINITION. The state of the block, the reasons a step can stop, and the state after reset. -/

namespace Sys2Proof.Machine

/-- Why the block would stop with a fault: no rule of the spec stops it, so no command raises one. -/
inductive Fault where
  /-- Raised by nothing: every command the outside can send has an effect in the spec. Safe. -/
  | neverRaised
deriving DecidableEq, Repr

/-- Why a command would have no meaning. -/
inductive Refusal where
  /-- Raised by an arm of `exec` whose command has no meaning yet; no arm is left so. Safe. -/
  | notModelled (mnemonic : String)
deriving DecidableEq, Repr

/-- Everything the spec gives the block, block by block, and the queue of waiting commands. -/
structure State where
  /-- Show Clock (03_show_clock.md). -/
  clock : Clock
  /-- The boundaries that have occurred and wait to be taken (R50). -/
  marks : Marks
  /-- Link Interface, port by port (01_the_truss_link.md). -/
  ports : PerPort PortState
  /-- The outbox (R17). -/
  outbox : Outbox
  /-- The longest outbox wait, in ms (R20). -/
  longestWait : Nat
  /-- Peer Table (R24), in ascending order of station number: "the order in which its records are held has no meaning
  to any rule". -/
  peers : List PeerRecord
  /-- Cue Store (04_cue_store.md). -/
  cues : CueStore
  /-- Playback Unit (05_playback_and_lanes.md, 06_move_planning_and_group_arrival.md). -/
  play : Playback
  /-- Colour Renderer (07_colour_rendering_and_group_matching.md). -/
  colour : Colour
  /-- The two axis drivers (08_axis_drive.md, 09_sensing_index_check_and_homing.md). -/
  axes : PerAxis AxisState
  /-- When the next bridge PWM period starts, in µs of the local timebase (R139, log 10). -/
  bridgeNext : Nat
  /-- Sense Unit (R144). -/
  sense : Sense
  /-- Feed Share Unit (10_feed_sharing.md). -/
  feed : Feed
  /-- The setup record in nonvolatile store (R176): the cells that do not read 0xFF, but for the serial's. -/
  store : List Host.Cell
  /-- The settings in force (R177). -/
  settings : Settings
  /-- Setup Store (11_setup_status_and_start_up.md). -/
  setup : Setup
  /-- The statistics counters (00_scope.md, section 4.3). -/
  stats : Stats
  /-- The input pins (00_scope.md, section 1.4). -/
  pins : Pins
  /-- The commands that wait, first in, first out. -/
  pending : List Instr
deriving DecidableEq, Repr

/-- The block right after a device reset (R183, R184 step 1), a part from the factory (R176, log 7). -/
def State.reset : State :=
  { clock := Clock.initial, marks := Marks.initial, ports := bothPorts PortState.initial, outbox := Outbox.initial,
    longestWait := 0, peers := [], cues := CueStore.initial, play := Playback.initial Settings.default,
    colour := Colour.initial Settings.default, axes := bothAxes AxisState.initial, bridgeNext := 40,
    sense := Sense.initial, feed := Feed.initial Settings.default, store := [], settings := Settings.default,
    setup := Setup.initial Settings.default, stats := Stats.zero, pins := Pins.initial, pending := [] }

end Sys2Proof.Machine
end

