-- ==== Sys2Proof/Machine/Ops.lean ====
section
/-! DEFINITION. The shared operations: updates of the state's parts, time, counters, bytes and the check of a frame, the
setup record, the outbox. -/

namespace Sys2Proof.Machine

/-! ### Updates of one part of the state -/

/-- `s` with its Show Clock replaced. -/
def State.withClock (s : State) (x : Clock) : State := { s with clock := x }
/-- `s` with its boundary marks replaced. -/
def State.withMarks (s : State) (x : Marks) : State := { s with marks := x }
/-- `s` with its ports replaced. -/
def State.withPorts (s : State) (x : PerPort PortState) : State := { s with ports := x }
/-- `s` with its outbox replaced. -/
def State.withOutbox (s : State) (x : Outbox) : State := { s with outbox := x }
/-- `s` with its longest outbox wait replaced. -/
def State.withLongestWait (s : State) (x : Nat) : State := { s with longestWait := x }
/-- `s` with its peer records replaced. -/
def State.withPeers (s : State) (x : List PeerRecord) : State := { s with peers := x }
/-- `s` with its Cue Store replaced. -/
def State.withCues (s : State) (x : CueStore) : State := { s with cues := x }
/-- `s` with its Playback Unit replaced. -/
def State.withPlay (s : State) (x : Playback) : State := { s with play := x }
/-- `s` with its Colour Renderer replaced. -/
def State.withColour (s : State) (x : Colour) : State := { s with colour := x }
/-- `s` with its axis drivers replaced. -/
def State.withAxes (s : State) (x : PerAxis AxisState) : State := { s with axes := x }
/-- `s` with its next bridge PWM period start replaced. -/
def State.withBridgeNext (s : State) (x : Nat) : State := { s with bridgeNext := x }
/-- `s` with its Sense Unit replaced. -/
def State.withSense (s : State) (x : Sense) : State := { s with sense := x }
/-- `s` with its Feed Share Unit replaced. -/
def State.withFeed (s : State) (x : Feed) : State := { s with feed := x }
/-- `s` with its setup record replaced. -/
def State.withStore (s : State) (x : List Host.Cell) : State := { s with store := x }
/-- `s` with its settings in force replaced. -/
def State.withSettings (s : State) (x : Settings) : State := { s with settings := x }
/-- `s` with its Setup Store's own state replaced. -/
def State.withSetup (s : State) (x : Setup) : State := { s with setup := x }
/-- `s` with its counters replaced. -/
def State.withStats (s : State) (x : Stats) : State := { s with stats := x }
/-- `s` with its pins replaced. -/
def State.withPins (s : State) (x : Pins) : State := { s with pins := x }

/-- `s` with one port replaced. -/
def State.withPort (s : State) (p : Port) (x : PortState) : State := s.withPorts (s.ports.set p x)

/-- `s` with one axis driver replaced. -/
def State.withAxis (s : State) (x : Axis) (a : AxisState) : State := s.withAxes (s.axes.set x a)

/-! ### Statistics -/

/-- One more, unless that would pass 65535 (00_scope.md, section 4.3). -/
def sat (n : Nat) : Nat :=
  min (n + 1) 65535

/-- Counts an event while statistics counting is on; "while it is OFF, the events take effect and the counters hold"
(R180). -/
def State.tally (s : State) (f : Stats → Stats) : State :=
  s.withStats (if s.setup.counting then f s.stats else s.stats)

/-- Counts an event of one port (R22). -/
def State.tallyPort (s : State) (p : Port) (f : PortStats → PortStats) : State :=
  s.tally fun t => { t with ports := t.ports.set p (f (t.ports.get p)) }

/-- Counts an event of the Show Clock (R52). -/
def State.tallyClock (s : State) (f : ClockStats → ClockStats) : State :=
  s.tally fun t => { t with clock := f t.clock }

/-- Counts an event of the Peer Table (R35). -/
def State.tallyPeers (s : State) (f : PeerStats → PeerStats) : State :=
  s.tally fun t => { t with peers := f t.peers }

/-- Counts an event of the Cue Store (R66). -/
def State.tallyCues (s : State) (f : CueStats → CueStats) : State :=
  s.tally fun t => { t with cues := f t.cues }

/-- Counts an event of the Playback Unit (R92). -/
def State.tallyPlay (s : State) (f : PlayStats → PlayStats) : State :=
  s.tally fun t => { t with play := f t.play }

/-- Counts an event of move planning (R109). -/
def State.tallyPlan (s : State) (f : PlanStats → PlanStats) : State :=
  s.tally fun t => { t with plan := f t.plan }

/-- Counts an event of the Colour Renderer (R127). -/
def State.tallyColour (s : State) (f : ColourStats → ColourStats) : State :=
  s.tally fun t => { t with colour := f t.colour }

/-- Counts an event of one axis (R143, R161). -/
def State.tallyAxis (s : State) (x : Axis) (f : AxisStats → AxisStats) : State :=
  s.tally fun t => { t with axes := t.axes.set x (f (t.axes.get x)) }

/-- Counts an event of the Feed Share Unit (R175). -/
def State.tallyFeed (s : State) (f : FeedStats → FeedStats) : State :=
  s.tally fun t => { t with feed := f t.feed }

/-- Counts an event of the Setup Store (R178). -/
def State.tallySetup (s : State) (f : SetupStats → SetupStats) : State :=
  s.tally fun t => { t with setup := f t.setup }

/-! ### Time -/

/-- The local timebase in whole microseconds (R37). -/
def State.micros (s : State) : Nat :=
  s.clock.thirds / 3

/-- Uptime: the whole-millisecond part of the local timebase (R37). -/
def State.uptime (s : State) : Nat :=
  s.clock.thirds / 3000

/-- The present show ms count as a tick (00_scope.md, section 4.2). -/
def State.showTick (s : State) : Int :=
  (s.clock.ms : Nat)

/-- Show time in microseconds of its epoch (R36). -/
def Clock.showMicros (c : Clock) : Nat :=
  c.ms * 1000 + c.us

/-- The largest show time, 4,294,967,295 ms and 999 µs, at which show time holds (R36). -/
def maxShowMicros : Nat :=
  4294967295 * 1000 + 999

/-- `c` with its show time set, held at its largest value (R36). -/
def Clock.setShowMicros (c : Clock) (t : Nat) : Clock :=
  { c with ms := min t maxShowMicros / 1000, us := min t maxShowMicros % 1000 }

/-- A boundary instant: a millisecond count that is a multiple of 4, with a microsecond count of 0 (R50). -/
def Clock.atBoundary (c : Clock) : Bool :=
  c.ms % 4 == 0 && c.us == 0

/-- A boundary that occurs is marked to each consumer of lanes, with its tick and the present epoch, behind those the
consumer has yet to take (R50). -/
def Marks.mark (m : Marks) (epoch : Nat) (b : Int) : Marks :=
  { epoch := epoch, playback := m.playback ++ [b], axes := { pan := m.axes.pan ++ [b], tilt := m.axes.tilt ++ [b] },
    colour := m.colour ++ [b], feed := m.feed ++ [b] }

/-- Show time runs on by one microsecond: a boundary instant it reaches occurs (R50), and its largest value holds (R36). -/
def State.runMicro (s : State) : State :=
  if s.clock.showMicros < maxShowMicros then
    let c := s.clock.setShowMicros (s.clock.showMicros + 1)
    let s' := s.withClock c
    if c.atBoundary then s'.withMarks (s.marks.mark c.epoch (c.ms : Nat)) else s'
  else s

/-- A third of a microsecond passes on the local timebase; show time runs on at each whole microsecond (R36, R37). -/
def State.passTime (s : State) : State :=
  let s' := s.withClock { s.clock with thirds := s.clock.thirds + 1 }
  if (s.clock.thirds + 1) % 3 == 0 then s'.runMicro else s'

/-! ### Signed arithmetic -/

/-- The exact quotient `n / d` rounded half away from zero (00_scope.md, section 4.3). -/
def roundDiv (n : Int) (d : Nat) : Int :=
  n.sign * ((2 * n.natAbs + d) / (2 * d) : Nat)

/-- The least whole number at or above the exact quotient `n / d` (00_scope.md, section 4.3). -/
def ceilDiv (n d : Nat) : Nat :=
  (n + (d - 1)) / d

/-- Adds the powers of two below `2 ^ bits` to `acc`, the largest first, each kept when `p` holds of the sum. -/
def searchFrom (p : Nat → Bool) : Nat → Nat → Nat
  | 0, acc => acc
  | bits + 1, acc => searchFrom p bits (if p (acc + 2 ^ bits) then acc + 2 ^ bits else acc)

/-- The largest number below `2 ^ bits` of which `p` holds, for a `p` that holds of 0 and of every number below one it
holds of. -/
def largestSuch (p : Nat → Bool) (bits : Nat) : Nat :=
  searchFrom p bits 0

/-- The smallest number of which `p` holds, for a `p` that holds of every number above one it holds of, and of one at
or below `2 ^ bits`. -/
def smallestSuch (p : Nat → Bool) (bits : Nat) : Nat :=
  if p 0 then 0 else largestSuch (fun n => !p n) bits + 1

/-! ### Bytes and the check of a frame -/

/-- The value of a multi-byte field, high byte first (R23). -/
def beValue (bs : List Byte) : Nat :=
  bs.foldl (fun v b => v * 256 + b.toNat) 0

/-- The field of `size` bytes at an offset (R23). -/
def fieldAt (bs : List Byte) (off size : Nat) : Nat :=
  beValue ((bs.drop off).take size)

/-- A value as a field of `size` bytes, high byte first (R23); what does not fit the field is dropped. -/
def beBytes (size v : Nat) : List Byte :=
  (List.range size).map fun i => BitVec.ofNat 8 (v / 256 ^ (size - 1 - i))

/-- A signed value as a field of `size` bytes, in two's complement, high byte first (R182). -/
def beSigned (size : Nat) (v : Int) : List Byte :=
  beBytes size (v % ((256 ^ size : Nat) : Int)).toNat

/-- A flag byte, its bit 0 first (R23). -/
def flagByte (bits : List Bool) : Byte :=
  BitVec.ofNat 8 (bits.foldr (fun b v => v * 2 + (if b then 1 else 0)) 0)

/-- One bit of the check's shift register, with the generator polynomial x¹⁶+x¹²+x⁵+1 (R3). -/
def crcShift (r : BitVec 16) : BitVec 16 :=
  if r.msb then (r <<< 1) ^^^ 0x1021 else r <<< 1

/-- One byte entering the check, most significant bit first (R3). -/
def crcByte (r : BitVec 16) (b : Byte) : BitVec 16 :=
  let r := r ^^^ (b.setWidth 16 <<< 8)
  crcShift (crcShift (crcShift (crcShift (crcShift (crcShift (crcShift (crcShift r)))))))

/-- The check of the bytes from kind through the last payload byte (R3). -/
def crc (bs : List Byte) : BitVec 16 :=
  bs.foldl crcByte 0xFFFF

/-- The lead character of a frame (R23). -/
def lead : Byte := 0xC5

/-- A whole frame: the lead, the bytes the check covers, and the check computed over them (R3, R23). -/
def sealFrame (covered : List Byte) : List Byte :=
  lead :: covered ++ beBytes 2 (crc covered).toNat

/-! ### The setup record (R176) -/

/-- What an address of a cell list reads: the byte listed, or 0xFF. -/
def readCell : List Host.Cell → Nat → Byte
  | [], _ => 0xFF
  | (k, v) :: rest, a => if k = a then v else readCell rest a

/-- A byte written to a cell list, which stays in ascending order and lists no byte 0xFF. -/
def writeCell (a : Nat) (b : Byte) : List Host.Cell → List Host.Cell
  | [] => if b = 0xFF then [] else [(a, b)]
  | (k, v) :: rest =>
    if a < k then (if b = 0xFF then (k, v) :: rest else (a, b) :: (k, v) :: rest)
    else if a = k then (if b = 0xFF then rest else (a, b) :: rest)
    else (k, v) :: writeCell a b rest

/-- The addresses of the serial in page 0 (R176). -/
def isSerialAddress (a : Nat) : Bool :=
  2 ≤ a && a < 10

/-- The addresses of a cell list are above `low` and strictly rising. -/
def Memory.risingFrom : Nat → List Host.Cell → Bool
  | _, [] => true
  | low, (k, _) :: rest => low ≤ k && Memory.risingFrom (k + 1) rest

/-- The canonical form of the setup record: addresses strictly rising and below 256, no byte listed that reads 0xFF
unlisted, none of the serial's addresses listed. -/
def Memory.wf (m : List Host.Cell) : Bool :=
  Memory.risingFrom 0 m && m.all fun c => c.1 < 256 && c.2 ≠ 0xFF && !isSerialAddress c.1

/-- A byte of the setup record: the factory serial at its own addresses, and elsewhere what has been written, 0xFF on a
part from the factory (R176). -/
def State.storeByte (s : State) (a : Nat) : Byte :=
  if h : 2 ≤ a ∧ a < 10 then Config.factorySerial ⟨a - 2, by omega⟩ else readCell s.store a

/-- One byte of a page written; the eight serial bytes are kept whatever the frame carries (R178). -/
def writeRecordByte (m : List Host.Cell) (a : Nat) (b : Byte) : List Host.Cell :=
  if isSerialAddress a then m else writeCell a b m

/-- Bytes written to consecutive addresses of the setup record, the serial's left alone (R178). -/
def writeRecord : List Host.Cell → Nat → List Byte → List Host.Cell
  | m, _, [] => m
  | m, a, b :: rest => writeRecord (writeRecordByte m a b) (a + 1) rest

/-- The factory serial as the eight bytes of the record (R176). -/
def serialBytes : List Byte :=
  (List.finRange 8).map Config.factorySerial

/-! ### The outbox -/

/-- Both ports, as a set. -/
def allPorts : PerPort Bool := bothPorts true

/-- No port, as a set. -/
def noPort : PerPort Bool := bothPorts false

/-- One set of ports lies within another. -/
def portsWithin (x y : PerPort Bool) : Bool :=
  (!x.a || y.a) && (!x.b || y.b)

/-- The ports that are UP (R4). -/
def State.portsUp (s : State) : PerPort Bool :=
  { a := s.ports.a.up, b := s.ports.b.up }

/-- A transmission no longer carries the present content of its entry once that class has been placed again (R18). -/
def Transmitter.supersede (t : Transmitter) (c : FrameClass) : Transmitter :=
  match t.current with
  | some x =>
    match x.source with
    | .own c' _ => if c' = c then { t with current := some { x with source := .own c false } } else t
    | .relayed => t
  | none => t

/-- The same for both ports' transmitters. -/
def State.supersede (s : State) (c : FrameClass) : State :=
  s.withPorts
    { a := { s.ports.a with tx := s.ports.a.tx.supersede c },
      b := { s.ports.b with tx := s.ports.b.tx.supersede c } }

/-- The freeing of the FEED-NOTE slot after the first FEED-NOTE's placement is what bridge enable waits for (R173). -/
def Feed.slotFreed (f : Feed) : Feed :=
  match f.enabling with
  | .waiting => { f with enabling := .due }
  | .notStarted => f
  | .due => f
  | .done => f

/-- An entry of a class, made at `entryTime`, is freed: its slot empties, the last-freed time is set and the longest
outbox wait is raised (R20). -/
def State.freeEntry (s : State) (c : FrameClass) (entryTime : Nat) : State :=
  let s' := (s.withOutbox (s.outbox.set c { entry := none, lastFreed := some s.uptime })).withLongestWait
    (max s.longestWait (s.uptime - entryTime))
  match c with
  | .feedNote => s'.withFeed s'.feed.slotFreed
  | .beacon => s'
  | .moveNote => s'
  | .matchNote => s'
  | .statusReply => s'

/-- The entry of a class is freed when its waited set has become a subset of its sent set (R20). -/
def State.freeIfCovered (s : State) (c : FrameClass) : State :=
  match (s.outbox.get c).entry with
  | some e => if portsWithin e.waited e.sent then s.freeEntry c e.entryTime else s
  | none => s

/-- A block places a frame in its class slot (R18): a new entry, or the pending one replaced in place with its entry
time kept; with no port UP, an entry of any class but BEACON is freed at once. -/
def State.place (s : State) (c : FrameClass) (dest : Byte) (payload : List Byte) : State :=
  let slot := s.outbox.get c
  let entryTime := match slot.entry with
    | some e => e.entryTime
    | none => s.uptime
  let s' := s.supersede c
  let up := s.portsUp
  let isBeacon := decide (c = .beacon)
  if up = noPort ∧ isBeacon = false then s'.freeEntry c entryTime
  else
    let waited := if up = noPort then allPorts else up
    let send := if isBeacon then allPorts else waited
    s'.withOutbox (s.outbox.set c
      { slot with
        entry := some { dest := dest, payload := payload, entryTime := entryTime, waited := waited, send := send,
                        sent := noPort } })

end Sys2Proof.Machine
end

