-- ==== Sys2Proof/Machine/Operands.lean ====
section
/-! DEFINITION. The fields of every frame kind: how a received payload is read and how an own payload is built
(01_the_truss_link.md, section 1.8). -/

namespace Sys2Proof.Machine

/-! ### Header -/

/-- The frame kinds of the table in R10. -/
inductive FrameKind where
  | beacon
  | moveNote
  | matchNote
  | feedNote
  | statusReply
  | cueLoad
  | cueGo
  | cueRelease
  | cueClear
  | protect
  | homeAsk
  | statusAsk
  | restart
  | setup
deriving DecidableEq, Repr

/-- The kind of a code; any other code is an unknown kind (R10, R23). -/
def kindOfCode (code : Byte) : Option FrameKind :=
  if code = 0x01 then some .beacon
  else if code = 0x02 then some .moveNote
  else if code = 0x03 then some .matchNote
  else if code = 0x04 then some .feedNote
  else if code = 0x05 then some .statusReply
  else if code = 0x20 then some .cueLoad
  else if code = 0x21 then some .cueGo
  else if code = 0x22 then some .cueRelease
  else if code = 0x23 then some .cueClear
  else if code = 0x24 then some .protect
  else if code = 0x25 then some .homeAsk
  else if code = 0x26 then some .statusAsk
  else if code = 0x27 then some .restart
  else if code = 0x28 then some .setup
  else none

/-- The required payload lengths of R10, least and greatest. -/
def FrameKind.lengths : FrameKind → Nat × Nat
  | .beacon => (14, 14)
  | .moveNote => (11, 11)
  | .matchNote => (10, 10)
  | .feedNote => (4, 4)
  | .statusReply => (1, 48)
  | .cueLoad => (31, 31)
  | .cueGo => (6, 6)
  | .cueRelease => (6, 6)
  | .cueClear => (4, 4)
  | .protect => (2, 2)
  | .homeAsk => (1, 1)
  | .statusAsk => (2, 2)
  | .restart => (0, 0)
  | .setup => (41, 41)

/-- A payload has the length its kind requires (R10). -/
def FrameKind.sizeOk (k : FrameKind) (payload : List Byte) : Bool :=
  k.lengths.1 ≤ payload.length && payload.length ≤ k.lengths.2

/-- The kind code of a class of own frames (R10, R17). -/
def FrameClass.code : FrameClass → Byte
  | .beacon => 0x01
  | .moveNote => 0x02
  | .matchNote => 0x03
  | .feedNote => 0x04
  | .statusReply => 0x05

/-- The priority order of the classes (R17). -/
def FrameClass.byPriority : List FrameClass :=
  [.beacon, .moveNote, .feedNote, .matchNote, .statusReply]

/-- The throttle interval of a class, in ms (R17). -/
def FrameClass.throttle : FrameClass → Nat
  | .beacon => 0
  | .moveNote => 0
  | .feedNote => 10
  | .matchNote => 20
  | .statusReply => 5

/-- The `to` value that addresses all stations (R23). -/
def toAll : Byte := 255

/-! ### Shared encodings -/

/-- The clock state codes (R23). -/
def ClockMode.code : ClockMode → Nat
  | .free => 0
  | .seek => 1
  | .locked => 2
  | .holdover => 3

/-- The clock state of a code; "a clock state field above 3 sets the beacon part's clock state to FREE" (R27). -/
def clockModeOfCode (n : Nat) : ClockMode :=
  if n = 1 then .seek else if n = 2 then .locked else if n = 3 then .holdover else .free

/-- One bit of a byte. -/
def bitOf (b : Byte) (i : Nat) : Bool :=
  b.toNat.testBit i

/-- Four consecutive two-byte fields, red to white (R23). -/
def emitterFields (bs : List Byte) (off : Nat) : PerEmitter Nat :=
  { red := fieldAt bs off 2, green := fieldAt bs (off + 2) 2, blue := fieldAt bs (off + 4) 2,
    white := fieldAt bs (off + 6) 2 }

/-- Four two-byte fields, red to white (R23). -/
def emitterBytes (v : PerEmitter Nat) : List Byte :=
  beBytes 2 v.red ++ beBytes 2 v.green ++ beBytes 2 v.blue ++ beBytes 2 v.white

/-! ### Fixture frames -/

/-- The payload of a BEACON (R23). -/
structure BeaconFields where
  stationKind : Nat
  clockState : Nat
  epoch : Nat
  ms : Nat
  us : Nat
  correction : Nat
  interval : Nat
deriving DecidableEq, Repr

/-- Reads the payload of a BEACON (R23). -/
def readBeacon (p : List Byte) : BeaconFields :=
  { stationKind := fieldAt p 0 1, clockState := fieldAt p 1 1, epoch := fieldAt p 2 2, ms := fieldAt p 4 4,
    us := fieldAt p 8 2, correction := fieldAt p 10 3, interval := fieldAt p 13 1 }

/-- Builds the payload of a BEACON (R23). -/
def buildBeacon (b : BeaconFields) : List Byte :=
  beBytes 1 b.stationKind ++ beBytes 1 b.clockState ++ beBytes 2 b.epoch ++ beBytes 4 b.ms ++ beBytes 2 b.us
    ++ beBytes 3 b.correction ++ beBytes 1 b.interval

/-- The payload of a MOVE-NOTE (R23). -/
structure MoveNoteFields where
  group : Nat
  cue : Nat
  goTick : Nat
  proposedEnd : Nat
deriving DecidableEq, Repr

/-- Reads the payload of a MOVE-NOTE (R23). -/
def readMoveNote (p : List Byte) : MoveNoteFields :=
  { group := fieldAt p 0 1, cue := fieldAt p 1 2, goTick := fieldAt p 3 4, proposedEnd := fieldAt p 7 4 }

/-- Builds the payload of a MOVE-NOTE (R23, R102). -/
def buildMoveNote (m : MoveNoteFields) : List Byte :=
  beBytes 1 m.group ++ beBytes 2 m.cue ++ beBytes 4 m.goTick ++ beBytes 4 m.proposedEnd

/-- Reads the payload of a MATCH-NOTE (R23). -/
def readMatchNote (p : List Byte) : Announcement :=
  let flags := BitVec.ofNat 8 (fieldAt p 1 1)
  { group := fieldAt p 0 1, outOfMatch := bitOf flags 0, pulled := bitOf flags 1, ceilings := emitterFields p 2 }

/-- Builds the payload of a MATCH-NOTE (R23, R119). -/
def buildMatchNote (m : Announcement) : List Byte :=
  beBytes 1 m.group ++ [flagByte [m.outOfMatch, m.pulled]] ++ emitterBytes m.ceilings

/-- The payload of a FEED-NOTE (R23). -/
structure FeedNoteFields where
  circuit : Nat
  claim : Nat
  tripped : Bool
  settling : Bool
deriving DecidableEq, Repr

/-- Reads the payload of a FEED-NOTE (R23). -/
def readFeedNote (p : List Byte) : FeedNoteFields :=
  let flags := BitVec.ofNat 8 (fieldAt p 3 1)
  { circuit := fieldAt p 0 1, claim := fieldAt p 1 2, tripped := bitOf flags 0, settling := bitOf flags 1 }

/-- Builds the payload of a FEED-NOTE (R23, R168). -/
def buildFeedNote (n : FeedNoteFields) : List Byte :=
  beBytes 1 n.circuit ++ beBytes 2 n.claim ++ [flagByte [n.tripped, n.settling]]

/-! ### Cue-source frames -/

/-- The payload of a CUE-LOAD (R23). -/
structure CueLoadFields where
  number : Nat
  parts : Byte
  pan : Nat
  tilt : Nat
  moveMs : Nat
  moveGroup : Nat
  levels : PerEmitter Nat
  colourMs : Nat
  intensity : Nat
  intensityMs : Nat
  delay : Nat
  follow : Nat
deriving DecidableEq, Repr

/-- Reads the payload of a CUE-LOAD; the two fill bytes are not read (R23, R56). -/
def readCueLoad (p : List Byte) : CueLoadFields :=
  { number := fieldAt p 0 2, parts := BitVec.ofNat 8 (fieldAt p 2 1), pan := fieldAt p 3 2, tilt := fieldAt p 5 2,
    moveMs := fieldAt p 7 2, moveGroup := fieldAt p 9 1, levels := emitterFields p 10, colourMs := fieldAt p 18 2,
    intensity := fieldAt p 20 2, intensityMs := fieldAt p 22 2, delay := fieldAt p 24 2, follow := fieldAt p 26 3 }

/-- The part flags of a CUE-LOAD (R23). -/
def CueLoadFields.hasPos (c : CueLoadFields) : Bool := bitOf c.parts 0
/-- COL (R23). -/
def CueLoadFields.hasCol (c : CueLoadFields) : Bool := bitOf c.parts 1
/-- INT (R23). -/
def CueLoadFields.hasInt (c : CueLoadFields) : Bool := bitOf c.parts 2
/-- DELAY (R23). -/
def CueLoadFields.hasDelay (c : CueLoadFields) : Bool := bitOf c.parts 3
/-- FOLLOW (R23). -/
def CueLoadFields.hasFollow (c : CueLoadFields) : Bool := bitOf c.parts 4
/-- DARK (R23). -/
def CueLoadFields.hasDark (c : CueLoadFields) : Bool := bitOf c.parts 5

/-- A two-byte field and a tick: the payload of a CUE-GO (cue number, go tick) and of a CUE-RELEASE (release ms, release
tick) (R23). -/
structure TickFields where
  value : Nat
  tick : Nat
deriving DecidableEq, Repr

/-- Reads the payload of a CUE-GO or a CUE-RELEASE (R23). -/
def readTickFields (p : List Byte) : TickFields :=
  { value := fieldAt p 0 2, tick := fieldAt p 2 4 }

/-- The low cue number of a CUE-CLEAR (R23). -/
def readClearLow (p : List Byte) : Nat := fieldAt p 0 2
/-- The high cue number of a CUE-CLEAR (R23). -/
def readClearHigh (p : List Byte) : Nat := fieldAt p 2 2
/-- The requested line of a PROTECT (R23). -/
def readLine (p : List Byte) : Nat := fieldAt p 0 2

/-- Whether a HOME-ASK names an axis: bit 0 pan, bit 1 tilt (R23); bits 2 to 7 are not read (R157). -/
def homeAskNames (p : List Byte) : Axis → Bool
  | .pan => bitOf (BitVec.ofNat 8 (fieldAt p 0 1)) 0
  | .tilt => bitOf (BitVec.ofNat 8 (fieldAt p 0 1)) 1

/-- The payload of a STATUS-ASK (R23). -/
structure StatusAskFields where
  page : Nat
  countOn : Bool
  countOff : Bool
  clear : Bool
deriving DecidableEq, Repr

/-- Reads the payload of a STATUS-ASK (R23). -/
def readStatusAsk (p : List Byte) : StatusAskFields :=
  let flags := BitVec.ofNat 8 (fieldAt p 1 1)
  { page := fieldAt p 0 1, countOn := bitOf flags 0, countOff := bitOf flags 1, clear := bitOf flags 2 }

/-- The payload of a SETUP (R23). -/
structure SetupFields where
  serial : List Byte
  page : Nat
  data : List Byte
deriving DecidableEq, Repr

/-- Reads the payload of a SETUP (R23). -/
def readSetup (p : List Byte) : SetupFields :=
  { serial := p.take 8, page := fieldAt p 8 1, data := (p.drop 9).take 32 }

/-! ### Own frames as they leave -/

/-- The fields of a BEACON at the start of its transmission: time and clock state as they stand (R21, R49). -/
def State.beaconFields (s : State) : BeaconFields :=
  { stationKind := 1, clockState := s.clock.mode.code, epoch := s.clock.epoch, ms := s.clock.ms, us := s.clock.us,
    correction := 0, interval := s.settings.beaconInterval / 10 }

/-- The payload an entry leaves with: as its sender built it, but for a BEACON's filled fields (R21). -/
def State.ownPayload (s : State) (c : FrameClass) (e : Entry) : List Byte :=
  match c with
  | .beacon => buildBeacon s.beaconFields
  | .moveNote => e.payload
  | .feedNote => e.payload
  | .matchNote => e.payload
  | .statusReply => e.payload

/-- An own frame as it leaves: origin the own station number, hops 0, groups the own group set (R21). -/
def State.ownFrame (s : State) (c : FrameClass) (e : Entry) : List Byte :=
  let payload := s.ownPayload c e
  sealFrame ([c.code, BitVec.ofNat 8 s.settings.station, e.dest, s.settings.groups, 0,
              BitVec.ofNat 8 payload.length] ++ payload)

/-- The BEACON the Show Clock places; its time fields are filled later (R49). -/
def State.placedBeacon (s : State) : List Byte :=
  buildBeacon { stationKind := 1, clockState := 0, epoch := 0, ms := 0, us := 0, correction := 0,
                interval := s.settings.beaconInterval / 10 }

/-! ### Relayed frames as they leave -/

/-- The serialization time of a frame of `chars` characters, in µs (R15). -/
def serialization (chars : Nat) : Nat :=
  ceilDiv (chars * 10) 3

/-- A received frame is a BEACON that holds a correction field: kind 0x01 and a payload of 14 bytes (R15, log 12). -/
def isBeaconFrame (bytes : List Byte) : Bool :=
  bytes.getD 1 0 = 0x01 ∧ bytes.length = 23

/-- The correction a relayed BEACON leaves with: raised by its residence time and its serialization time, and held at
16,777,215 (R15). -/
def raisedCorrection (r : RelayFrame) (now : Nat) : Nat :=
  min (fieldAt r.bytes 17 3 + ((now - r.ended) / 3 + serialization r.bytes.length)) 16777215

/-- A relayed frame as it leaves: hops one greater, a BEACON's correction raised, the check computed anew (R15). -/
def relayEdit (r : RelayFrame) (now : Nat) : List Byte :=
  let covered := (r.bytes.take (r.bytes.length - 2)).drop 1
  let hopped := covered.set 4 (covered.getD 4 0 + 1)
  let edited :=
    if isBeaconFrame r.bytes then
      hopped.take 16 ++ beBytes 3 (raisedCorrection r now) ++ hopped.drop 19
    else hopped
  sealFrame edited

end Sys2Proof.Machine
end

