-- ==== Sys2Proof/Machine/SetupRecord.lean ====
section
/-! DEFINITION. The settings each block takes from the setup record, with its own corrections (R93, R110, R137 to R139,
R147, R162, R176), and what the read of the record leaves (R177). -/

namespace Sys2Proof.Machine

/-- A field of the setup record: `size` bytes at an offset of a page, high byte first (R176). -/
def State.recordField (s : State) (page off size : Nat) : Nat :=
  beValue ((List.range size).map fun i => s.storeByte (32 * page + off + i))

/-- A temperature field: a signed byte (R176). -/
def State.recordTemp (s : State) (page off : Nat) : Int :=
  (s.storeByte (32 * page + off)).toInt

/-- The page of an axis (R176). -/
def axisPage : Axis → Nat
  | .pan => 2
  | .tilt => 3

/-- The settings of one axis with their corrections (R93, R137, R138, R147, R162). Park is kept as the record has it, but
within the axis travel (R176; log 25). -/
def State.readAxisSettings (s : State) (x : Axis) : AxisSettings :=
  let f := s.recordField (axisPage x)
  let vmax := max 1 (f 0 1)
  let accel := max 1 (f 1 1)
  let low := min (f 3 2) (travel x)
  let high := max low (min (f 5 2) (travel x))
  let runCurrent := min (f 9 2) 1000
  let rise := min (f 17 2) (travel x - 1)
  { vmax := vmax, accel := accel, accelHold := clampNat 1 accel (f 2 1), softLow := low, softHigh := high,
    park := min (f 7 2) (travel x), runCurrent := runCurrent, holdCurrent := min (f 11 2) runCurrent,
    fullScale := clampNat 1 1000 (f 13 2), isReversed := f 15 1 ≠ 0, brake := f 16 1 ≠ 0, risePos := rise,
    fallPos := clampNat (rise + 1) (travel x) (f 19 2), slipTolerance := max 1 (f 21 1), vaneTolerance := f 22 1,
    homingSpeed := clampNat 1 vmax (f 23 1), rehomeInDark := f 24 1 ≠ 0 }

/-- An entry of the derating table (R110, R176). -/
def State.readDerating (s : State) (i : Nat) : DeratingEntry :=
  { threshold := clampInt (-40) 125 (s.recordTemp 5 (3 * i)), derate := min (s.recordField 5 (3 * i + 1) 2) 1000 }

/-- The settings the record gives, each with its block's corrections (R176). DESIGN CHOICE: a driver temperature limit below
−40 °C, of which R162 gives no correction, is taken as it is (log 38). -/
def State.readSettings (s : State) : Settings :=
  let pan := s.readAxisSettings .pan
  let tilt := s.readAxisSettings .tilt
  let standby := min (s.recordField 1 0 2) 1000
  let base := standby + pan.holdCurrent + tilt.holdCurrent
  let limit := max base (clampNat 10 6000 (s.recordField 1 2 2))
  let zeroAbove (hi n : Nat) : Nat := if hi < n then 0 else n
  let emitter (page off : Nat) : Emitter → Nat
    | .red => s.recordField page off 2
    | .green => s.recordField page (off + 2) 2
    | .blue => s.recordField page (off + 4) 2
    | .white => s.recordField page (off + 6) 2
  let polarity := s.storeByte (32 * 4 + 8)
  { station := s.recordField 0 10 1, groups := s.storeByte 11, hopLimit := clampNat 1 63 (s.recordField 0 12 1),
    lockCount := clampNat 1 7 (s.recordField 0 13 1), beaconInterval := 10 * clampNat 5 25 (s.recordField 0 14 1),
    countingDefault := s.recordField 0 15 1 ≠ 0, gatherWindow := clampNat 8 64 (s.recordField 0 16 1),
    matchGroup := zeroAbove 15 (s.recordField 0 17 1), matchFloor := min (s.recordField 0 18 2) 1000,
    circuit := zeroAbove 15 (s.recordField 0 20 1), deadtime := min (s.recordField 0 21 1) 63,
    noteInterval := clampNat 20 200 (s.recordField 0 22 1),
    standby := standby, limit := limit, floorShare := clampNat base limit (s.recordField 1 4 2),
    tripLevel := s.recordField 1 6 2, driverLimit := min (s.recordTemp 1 8) 124,
    fullDrive := PerEmitter.of fun e => min (emitter 1 9 e) 6000,
    axes := { pan := pan, tilt := tilt },
    fullOutput := PerEmitter.of fun e => clampNat 1 60000 (emitter 4 0 e),
    activeLow := { red := bitOf polarity 0, green := bitOf polarity 1, blue := bitOf polarity 2,
                   white := bitOf polarity 3 },
    derating := (List.range 8).map s.readDerating }

/-- The record makes a configured station: the marker 0xA5C3 and a station number of 1 to 250 (R177). -/
def State.recordConfigures (s : State) : Bool :=
  s.recordField 0 0 2 = 0xA5C3 ∧ 1 ≤ s.recordField 0 10 1 ∧ s.recordField 0 10 1 ≤ 250

/-- The settings in force from the read on: the record's for a configured station, the defaults otherwise (R177). -/
def State.settingsAtRead (s : State) : Settings :=
  if s.recordConfigures then s.readSettings else Settings.default

/-- The values each block takes at a device reset; the setup record, the pins and the waiting commands are left as they
stand (R183). -/
def State.deviceReset (s : State) : State :=
  { State.reset with store := s.store, pins := s.pins, pending := s.pending }

/-- The read completes: the settings come into force, and each reset value that follows from a setting holds the value
they give (R177). -/
def State.configure (s : State) : State :=
  let st := s.settingsAtRead
  { s with
    settings := st,
    play := Playback.initial st,
    colour := { Colour.initial st with nextPeriod := s.colour.nextPeriod },
    feed := Feed.initial st,
    setup := { s.setup with readDone := true, configured := s.recordConfigures, counting := st.countingDefault } }

end Sys2Proof.Machine
end

