-- ==== Sys2Proof/Machine/Planner.lean ====
section
/-! DEFINITION. The Move Planner: effective acceleration, minimum times, plan lengths and the move profile (R94 to R98),
and the value of a lane (R68). -/

namespace Sys2Proof.Machine

/-- The effective acceleration of an axis at a grant (R95). -/
def effectiveAccel (a : AxisSettings) (grant : Nat) : Nat :=
  if a.runCurrent = a.holdCurrent then a.accel
  else
    a.accelHold + (a.accel - a.accelHold) * (clampNat a.holdCurrent a.runCurrent grant - a.holdCurrent)
      / (a.runCurrent - a.holdCurrent)

/-- The speed test: the smallest whole T with 3 × vmax × T at least 4 × |D| (R96). -/
def speedTime (vmax dist : Nat) : Nat :=
  ceilDiv (4 * dist) (3 * vmax)

/-- The acceleration test: the smallest whole T with 3 × a_eff × T² at least 256 × |D| (R96). -/
def accelTime (aEff dist : Nat) : Nat :=
  smallestSuch (fun t => decide (256 * dist ≤ 3 * aEff * t ^ 2)) ((256 * dist).log2 + 1)

/-- The minimum time of a distance, in render frames (R96). -/
def minimumTime (vmax aEff dist : Nat) : Nat :=
  max (speedTime vmax dist) (accelTime aEff dist)

/-- A plan: the clamped targets, the shared plan length, and whether it is stretched (section 6.2). -/
structure Plan where
  target : PerAxis Int
  length : Nat
  stretched : Bool
deriving DecidableEq, Repr

/-- A target brought within its axis's soft limits (R94). -/
def softClamp (a : AxisSettings) (t : Int) : Int :=
  clampInt (a.softLow : Nat) (a.softHigh : Nat) t

/-- The Move Planner's answer to a request: start values, requested targets, a move time in ms and a cap in render
frames, at the grants given (R94 to R97). -/
def makePlan (st : Settings) (grant : PerAxis Nat) (start target : PerAxis Int) (moveMs cap : Nat) : Plan :=
  let pan := softClamp st.axes.pan target.pan
  let tilt := softClamp st.axes.tilt target.tilt
  let panMin := minimumTime st.axes.pan.vmax (effectiveAccel st.axes.pan grant.pan) (pan - start.pan).natAbs
  let tiltMin := minimumTime st.axes.tilt.vmax (effectiveAccel st.axes.tilt grant.tilt) (tilt - start.tilt).natAbs
  let cueTime := min (ceilDiv moveMs 4) cap
  let length := max cueTime (max panMin tiltMin)
  { target := { pan := pan, tilt := tilt }, length := length,
    stretched := (cueTime < length && 0 < moveMs) || 15000 < panMin || 15000 < tiltMin }

/-- The offset s(n) of a lane with signed distance D and plan length T at render frame n (R98). -/
def profile (d : Int) (t n : Nat) : Int :=
  if 4 * n ≤ t then roundDiv (8 * d * (n ^ 2 : Nat)) (3 * t ^ 2)
  else if 4 * n < 3 * t then roundDiv (d * (8 * n - t : Nat)) (6 * t)
  else d - roundDiv (8 * d * ((t - n) ^ 2 : Nat)) (3 * t ^ 2)

/-! ### The value of a lane (R68) -/

/-- PAN or TILT at show time `t` (R68). -/
def PosLanes.value (l : PosLanes) (x : Axis) (t : Int) : Int :=
  match l.timing.state with
  | .hold => l.target.get x
  | .wait _ => l.start.get x
  | .fade =>
    if l.timing.endTick.any (fun e => decide (e ≤ t)) then l.target.get x
    else if t < l.timing.startTick then l.start.get x
    else l.start.get x
      + profile (l.target.get x - l.start.get x) (l.plan.getD 0) ((t - l.timing.startTick) / 4).toNat

/-- A level lane at show time `t`, from its timing, start value and target (R68). -/
def levelAt (tm : Timing) (start target : Nat) (t : Int) : Nat :=
  match tm.state with
  | .hold => target
  | .wait _ => start
  | .fade =>
    match tm.endTick with
    | none => start
    | some e =>
      if e ≤ t then target
      else if t < tm.startTick then start
      else (start + roundDiv (((target : Int) - start) * (t - tm.startTick)) (e - tm.startTick).toNat).toNat

/-- INTENSITY at show time `t` (R68). -/
def LevelLane.value (l : LevelLane) (t : Int) : Nat :=
  levelAt l.timing l.start l.target t

/-- A colour lane at show time `t` (R68). -/
def ColourLanes.value (l : ColourLanes) (e : Emitter) (t : Int) : Nat :=
  levelAt l.timing (l.start.get e) (l.target.get e) t

/-- Both position lanes at show time `t`. -/
def PosLanes.values (l : PosLanes) (t : Int) : PerAxis Int :=
  { pan := l.value .pan t, tilt := l.value .tilt t }

/-! ### Setting position lanes from a plan -/

/-- PAN and TILT in FADE from a tick over a plan, or in HOLD at once if its length is 0 (R79, R82, R105). -/
def fadeFrom (start : PerAxis Int) (moveMs : Nat) (plan : Plan) (tick : Int) : PosLanes :=
  { timing := { state := if plan.length = 0 then .hold else .fade, startTick := tick,
                endTick := some (tick + 4 * (plan.length : Nat)) },
    start := if plan.length = 0 then plan.target else start, target := plan.target, plan := some plan.length,
    moveMs := moveMs }

/-- Counts a stretched plan, once for the plan (R97). -/
def State.countStretched (s : State) (plan : Plan) : State :=
  if plan.stretched then s.tallyPlan fun t => { t with stretched := sat t.stretched } else s

/-- The Move Planner asked with the grants the Feed Share Unit holds now (R95). -/
def State.plan (s : State) (start target : PerAxis Int) (moveMs cap : Nat) : Plan :=
  makePlan s.settings s.feed.grant start target moveMs cap

/-- The lanes of a plain move and its plan, with effective start tick `from` and present show ms `now` (R79). -/
def State.plainMove (s : State) (start target : PerAxis Int) (moveMs : Nat) (startTick now : Int) : PosLanes × Plan :=
  if now < startTick then
    let plan := s.plan start target moveMs 15000
    ({ timing := { state := .wait .delay, startTick := startTick,
                   endTick := some (startTick + 4 * (plan.length : Nat)) },
       start := start, target := plan.target, plan := some plan.length, moveMs := moveMs }, plan)
  else
    let plan := s.plan start target (startTick + (moveMs : Nat) - now).toNat 15000
    (fadeFrom start moveMs plan now, plan)

/-- `s` with its position lanes replaced. -/
def State.withPos (s : State) (l : PosLanes) : State :=
  s.withPlay { s.play with pos := l }

/-- Sets PAN and TILT by a plain move, its plan's stretch counted (R79, R97). -/
def State.setPlain (s : State) (start target : PerAxis Int) (moveMs : Nat) (startTick now : Int) : State :=
  let m := s.plainMove start target moveMs startTick now
  (s.withPos m.1).countStretched m.2

end Sys2Proof.Machine
end

