-- ==== Sys2Proof/Machine/Flags.lean ====
section
/-! DEFINITION. The conditions the rules test: acceptance of a frame, what is owed to a port, the instants at which the
block's own steps fall due, and the flags computed from several blocks. -/

namespace Sys2Proof.Machine

/-! ### Acceptance (R8, R9) -/

/-- The origin of a frame is this station's own number, when that is 1 to 250 (R8). -/
def State.isOwnEcho (s : State) (origin : Byte) : Bool :=
  s.settings.station ≠ 0 ∧ origin.toNat = s.settings.station

/-- Two group sets share at least one group (R9). -/
def groupsMeet (x y : Byte) : Bool :=
  x &&& y ≠ 0

/-- A frame of a kind that has passed its check is accepted: by a configured station if it is addressed to it, to all or
to a group of its own; by an unconfigured one only a SETUP or a RESTART sent to 255 (R9, log 11). No port takes a
frame before the setup record has been read (R177). -/
def State.accepts (s : State) (k : FrameKind) (f : Frame) : Bool :=
  s.setup.readDone && f.originIsStation && !s.isOwnEcho f.origin &&
    (if s.setup.configured then
      decide (f.dest.toNat = s.settings.station) || f.dest == toAll
        || (f.dest == 0 && groupsMeet f.groups s.settings.groups)
    else f.dest == toAll && (decide (k = .setup) || decide (k = .restart)))

/-- R10: an accepted frame of the right size is counted in frames in and handed to its consumer; of the wrong size, it
is counted in bad size. A frame that is not accepted is not consumed (log 4). -/
def State.handOn (s : State) (k : FrameKind) (f : Frame) (consume : State → State) : State :=
  if s.accepts k f then
    if k.sizeOk f.payload then
      consume (s.tallyPort f.port fun t => { t with framesIn := sat t.framesIn })
    else s.tallyPort f.port fun t => { t with badSize := sat t.badSize }
  else s

/-! ### Flags over several blocks -/

/-- The clock is synced: LOCKED or HOLDOVER (R38). -/
def Clock.synced (c : Clock) : Bool :=
  c.mode == .locked || c.mode == .holdover

/-- The axis is HOMING, in any phase (R123). -/
def AxisMode.isHoming : AxisMode → Bool
  | .homing _ => true
  | .unsure => false
  | .ready => false
  | .failed => false
  | .tripped => false

/-- The trip state is TRIPPED (R163). -/
def Feed.isTripped (f : Feed) : Bool :=
  f.tripEnd.isSome

/-- A forced zero holds: the feed is TRIPPED or an axis is HOMING (R123). -/
def State.forcedZero (s : State) : Bool :=
  s.feed.isTripped || s.axes.pan.mode.isHoming || s.axes.tilt.mode.isHoming

/-- The trip flag of an axis: set while the axis is TRIPPED (R128, R140). -/
def AxisState.tripFlag (a : AxisState) : Bool :=
  a.mode == .tripped

/-- An axis's bridges are driven: its bridge enable is set and its mode is not TRIPPED (R130). -/
def AxisState.driven (a : AxisState) : Bool :=
  a.bridgeEnable && a.mode != .tripped

/-! ### Instants at which a timed step falls due -/

/-- `n` ms of uptime have passed since a time. -/
def State.passed (s : State) (since n : Nat) : Bool :=
  since + n ≤ s.uptime

/-- An absolute uptime, if present, has been reached. -/
def State.reached (s : State) (t : Option Nat) : Bool :=
  t.any fun u => decide (u ≤ s.uptime)

/-- A tick of the own epoch, if present, has been reached by show time (R51). -/
def State.tickReached (s : State) (t : Option Int) : Bool :=
  t.any fun u => decide (u ≤ s.showTick)

/-- A port that is UP has been silent for 250 ms (R4). -/
def State.silenceDue (s : State) (p : Port) : Bool :=
  (s.ports.get p).up && s.passed (s.ports.get p).lastChar 250

/-- Until when a receive line has been idle since its last stop bit: the start bit of a character begun after it, or now
(R1, R2). -/
def State.idleUntil (s : State) (p : Port) : Nat :=
  match s.pins.startBit.get p with
  | some t => if (s.ports.get p).asm.lastEnd ≤ t then min t s.clock.thirds else s.clock.thirds
  | none => s.clock.thirds

/-- A frame in progress on a receive line closes: the line has been idle for two character times, 20 thirds of a µs (R2). -/
def State.closeDue (s : State) (p : Port) : Bool :=
  let a := (s.ports.get p).asm
  0 < a.count && decide (a.lastEnd + 20 ≤ s.idleUntil p)

/-- When a transmission ends: ten thirds of a µs for each character (R1). -/
def Transmission.endsAt (t : Transmission) : Nat :=
  t.started + 10 * t.bytes.length

/-- What a transmission puts on its line in the third of a µs that begins at an instant: its characters back to back, each a
start bit, eight data bits with the least significant first, and a stop bit, and an idle line after the last (R1). -/
def Transmission.bitAt (t : Transmission) (now : Nat) : LineBit :=
  match t.bytes[(now - t.started) / 10]? with
  | none => .idle
  | some c =>
    match (now - t.started) % 10 with
    | 0 => .start
    | 9 => .stop
    | i + 1 => .data (c.getLsbD i)

/-- What the transmit line of a port carries in the third of a µs that begins at the present instant (R1, R16; log 31). -/
def State.transmitBit (s : State) (p : Port) : LineBit :=
  match (s.ports.get p).tx.current with
  | none => .idle
  | some t => t.bitAt s.clock.thirds

/-- The transmission of a relayed frame has ended (R16). -/
def State.relayEnded (s : State) (p : Port) : Bool :=
  (s.ports.get p).tx.current.any fun t => t.source == .relayed && decide (t.endsAt ≤ s.clock.thirds)

/-- The transmission of an own frame has ended (R20). -/
def State.ownEnded (s : State) (p : Port) : Bool :=
  (s.ports.get p).tx.current.any fun t => t.source != .relayed && decide (t.endsAt ≤ s.clock.thirds)

/-- The entry of a class that a port still has to send: its send set holds the port and its sent set does not (R19). -/
def State.owed (s : State) (p : Port) (c : FrameClass) : Bool :=
  (s.outbox.get c).entry.any fun e => e.send.get p && !e.sent.get p

/-- A class is throttled: fewer than its throttle interval have passed since its last entry was freed (R19). -/
def State.throttled (s : State) (c : FrameClass) : Bool :=
  (s.outbox.get c).lastFreed.any fun t => decide (s.uptime < t + c.throttle)

/-- The outbox arbiter's choice for a port: the first unthrottled class owed, else the throttled one of highest priority
(R19). -/
def State.arbiter (s : State) (p : Port) : Option FrameClass :=
  match FrameClass.byPriority.find? fun c => s.owed p c && !s.throttled c with
  | some c => some c
  | none => FrameClass.byPriority.find? fun c => s.owed p c

/-- The oldest entry a port still has to send has waited 2 ms or more, since some entry has (R16 step 2). -/
def State.ownWaited (s : State) (p : Port) : Bool :=
  FrameClass.byPriority.any fun c =>
    s.owed p c && (s.outbox.get c).entry.any fun e => decide (e.entryTime + 2 ≤ s.uptime)

/-- A port's transmitter is at a choice point: it is idle, three character times have passed since its last frame
ended, and it has something to send (R16). -/
def State.choiceDue (s : State) (p : Port) : Bool :=
  let ps := s.ports.get p
  ps.tx.current.isNone && ps.tx.lastEnded.all (fun e => decide (e + 30 ≤ s.clock.thirds))
    && (!ps.fifo.committed.isEmpty || (s.arbiter p).isSome)

/-- The clock slews: LOCKED with catch-up above 0, once at each whole millisecond of uptime (R46). DESIGN CHOICE: a catch-up
raised at the very instant of a whole millisecond slews in that millisecond too (log 15). -/
def State.slewDue (s : State) : Bool :=
  s.clock.mode == .locked && decide (0 < s.clock.catchUp) && s.clock.thirds % 3000 == 0
    && s.clock.slewedAt != s.uptime

/-- LOCKED and 1000 ms since the last beacon (R47). -/
def State.holdoverDue (s : State) : Bool :=
  s.clock.mode == .locked && s.clock.lastBeacon.any fun t => s.passed t 1000

/-- HOLDOVER and 30,000 ms since its entry (R47). -/
def State.holdoverLossDue (s : State) : Bool :=
  s.clock.mode == .holdover && s.clock.holdoverEntry.any fun t => s.passed t 30000

/-- SEEK and 1000 ms since the last beacon (R47). -/
def State.seekLossDue (s : State) : Bool :=
  s.clock.mode == .seek && s.clock.lastBeacon.any fun t => s.passed t 1000

/-- A record's age unit: the announced interval, or the own beacon interval without a beacon part (R24). -/
def PeerRecord.ageUnit (own : Nat) (r : PeerRecord) : Nat :=
  match r.beaconPart with
  | some b => b.interval
  | none => own

/-- A record's age has reached four of its age units (R31). -/
def State.ageOutDue (s : State) (r : PeerRecord) : Bool :=
  s.passed r.lastHeard (4 * r.ageUnit s.settings.beaconInterval)

/-- A record's feed part was refreshed 1000 ms ago (R32). -/
def State.feedLapseDue (s : State) (r : PeerRecord) : Bool :=
  r.feedPart.any fun x => s.passed x.refreshed 1000

/-- A record's match part was refreshed 2000 ms ago (R32). -/
def State.matchLapseDue (s : State) (r : PeerRecord) : Bool :=
  r.matchPart.any fun x => s.passed x.refreshed 2000

/-- A lane is moved by show time reaching one of its ticks: a DELAY wait by its start tick, a fade by its end tick (R69). -/
def State.laneDue (s : State) (t : Timing) : Bool :=
  match t.state with
  | .wait .delay => decide (t.startTick ≤ s.showTick)
  | .fade => s.tickReached t.endTick
  | .wait .gather => false
  | .wait .dark => false
  | .hold => false

/-- The timing of a group of lanes. -/
def Playback.timing (p : Playback) : LaneGroup → Timing
  | .position => p.pos.timing
  | .intensity => p.intensity.timing
  | .colour => p.colour.timing

/-- An entry of the early note table was set 250 ms ago (R104). -/
def State.earlyDue (s : State) (n : EarlyNote) : Bool :=
  s.passed n.setAt 250

/-- The setup record has been read: 1 ms of uptime after the reset (R177). -/
def State.readDue (s : State) : Bool :=
  !s.setup.readDone && decide (1 ≤ s.uptime) && !s.pins.resetHeld

end Sys2Proof.Machine
end

