-- ==== Sys2Proof/Machine/CueStore.lean ====
section
/-! DEFINITION. The Cue Store (04_cue_store.md): the cue list, loads, clears, the protect line, refusals, and the answers
to the Playback Unit. -/

namespace Sys2Proof.Machine

/-! ### The last refusal record (R64) -/

/-- A refusal replaces the last refusal record and is counted (R64). -/
def State.refuse (s : State) (kind : RefusalKind) (cue origin : Nat) : State :=
  (s.withCues { s.cues with refusal := some { kind := kind, cue := cue, origin := origin } }).tallyCues
    fun t => { t with refusals := sat t.refusals }

/-! ### Answers to the Playback Unit (R60) -/

/-- The cue with number `n` (R60). -/
def CueStore.cueNumbered (c : CueStore) (n : Nat) : Option Cue :=
  c.cues.find? fun q => q.number == n

/-- The cue after number `n`: the record with the smallest number above `n` (R60); the list is ascending (R53). -/
def CueStore.cueAfter (c : CueStore) (n : Nat) : Option Cue :=
  c.cues.find? fun q => decide (n < q.number)

/-- The first cue (R60). -/
def CueStore.firstCue (c : CueStore) : Option Cue :=
  c.cues.head?

/-! ### Loads (R55 to R58) -/

/-- The position part a load carries, clamped; a move group above 15 is stored as 0 (R56, R57). -/
def CueLoadFields.posPart (f : CueLoadFields) : Option PosPart :=
  if f.hasPos then
    some { target := { pan := min f.pan 54000, tilt := min f.tilt 27000 }, moveMs := min f.moveMs 60000,
           moveGroup := if 15 < f.moveGroup then 0 else f.moveGroup, dark := f.hasDark }
  else none

/-- The colour part a load carries, clamped (R56, R57). -/
def CueLoadFields.colPart (f : CueLoadFields) : Option ColPart :=
  if f.hasCol then
    some { levels := PerEmitter.of fun e => min (f.levels.get e) 1000, ms := min f.colourMs 60000 }
  else none

/-- The intensity part a load carries, clamped (R56, R57). -/
def CueLoadFields.intPart (f : CueLoadFields) : Option IntPart :=
  if f.hasInt then some { level := min f.intensity 1000, ms := min f.intensityMs 60000 } else none

/-- The record built from a load's fields (R56, R57). -/
def CueLoadFields.cue (f : CueLoadFields) : Cue :=
  { number := f.number, pos := f.posPart, col := f.colPart, int := f.intPart,
    delay := if f.hasDelay then min f.delay 60000 else 0,
    follow := if f.hasFollow then some (min f.follow 600000) else none }

/-- One or more of the fields read were above their ranges (R57). -/
def CueLoadFields.isClamped (f : CueLoadFields) : Bool :=
  (f.hasPos && (decide (54000 < f.pan) || decide (27000 < f.tilt) || decide (60000 < f.moveMs)
      || decide (15 < f.moveGroup)))
    || (f.hasCol && (decide (1000 < f.levels.red) || decide (1000 < f.levels.green) || decide (1000 < f.levels.blue)
      || decide (1000 < f.levels.white) || decide (60000 < f.colourMs)))
    || (f.hasInt && (decide (1000 < f.intensity) || decide (60000 < f.intensityMs)))
    || (f.hasDelay && decide (60000 < f.delay))
    || (f.hasFollow && decide (600000 < f.follow))

/-- A record stored in an ascending list: in place of the one with its number, or inserted in order (R58). -/
def insertCue (q : Cue) : List Cue → List Cue
  | [] => [q]
  | r :: rest =>
    if q.number < r.number then q :: r :: rest
    else if q.number = r.number then q :: rest
    else r :: insertCue q rest

/-- The list holds a record with this number. -/
def CueStore.holds (c : CueStore) (n : Nat) : Bool :=
  c.cues.any fun q => q.number == n

/-- The tests of a load, in order; the first that fails gives its refusal (R55). -/
def CueStore.loadTest (c : CueStore) (f : CueLoadFields) : Option RefusalKind :=
  if f.number < 1 ∨ 9999 < f.number then some .badNumber
  else if !f.hasPos && !f.hasCol && !f.hasInt then some .empty
  else if f.number ≤ c.line then some .isProtected
  else if !c.holds f.number && decide (128 ≤ c.cues.length) then some .full
  else none

/-- A load that has passed the tests is stored, as a replace or an insert, and counted (R57, R58). -/
def State.storeLoad (s : State) (f : CueLoadFields) : State :=
  let isReplace := s.cues.holds f.number
  let s1 := s.withCues { s.cues with cues := insertCue f.cue s.cues.cues }
  let s2 := s1.tallyCues fun t =>
    if isReplace then { t with replaced := sat t.replaced } else { t with inserted := sat t.inserted }
  if f.isClamped then s2.tallyCues fun t => { t with clamped := sat t.clamped } else s2

/-- The Cue Store takes a CUE-LOAD whole (R55). -/
def State.takeLoad (s : State) (f : CueLoadFields) (origin : Nat) : State :=
  match s.cues.loadTest f with
  | some kind => s.refuse kind f.number origin
  | none => s.storeLoad f

/-! ### Clears (R61, R62) -/

/-- A record lies in the range of a clear. -/
def Cue.inRange (low high : Nat) (q : Cue) : Bool :=
  low ≤ q.number && q.number ≤ high

/-- The records a clear removes: those in its range above the protect line (R62). -/
def CueStore.clears (c : CueStore) (low high : Nat) (q : Cue) : Bool :=
  q.inRange low high && decide (c.line < q.number)

/-- The lowest record of a clear's range that stays because of the protect line (R62). -/
def CueStore.lowestKept (c : CueStore) (low high : Nat) : Option Cue :=
  c.cues.find? fun q => q.inRange low high && decide (q.number ≤ c.line)

/-- `k` more, held at 65535 (00_scope.md, section 4.3). -/
def satBy (k n : Nat) : Nat :=
  min (n + k) 65535

/-- The Cue Store takes a CUE-CLEAR whole (R61, R62). -/
def State.takeClear (s : State) (low high origin : Nat) : State :=
  if high < low then s.refuse .badNumber low origin
  else
    let removed := (s.cues.cues.filter fun q => s.cues.clears low high q).length
    let s1 := (s.withCues { s.cues with cues := s.cues.cues.filter fun q => !s.cues.clears low high q }).tallyCues
      fun t => { t with removed := satBy removed t.removed }
    match s.cues.lowestKept low high with
    | some q => s1.refuse .isProtected q.number origin
    | none => s1

/-! ### The protect line (R63) -/

/-- The Cue Store takes a PROTECT whole (R63). -/
def State.takeProtect (s : State) (line origin : Nat) : State :=
  if 9999 < line then s.refuse .badNumber line origin
  else if line < s.cues.line then s.refuse .lineDown line origin
  else s.withCues { s.cues with line := line }

/-! ### The commands -/

/-- An accepted CUE-LOAD (R10, R55). -/
def State.receiveCueLoad (s : State) (f : Frame) : State :=
  s.handOn .cueLoad f fun s => s.takeLoad (readCueLoad f.payload) f.origin.toNat

/-- An accepted CUE-CLEAR (R10, R61). -/
def State.receiveCueClear (s : State) (f : Frame) : State :=
  s.handOn .cueClear f fun s => s.takeClear (readClearLow f.payload) (readClearHigh f.payload) f.origin.toNat

/-- An accepted PROTECT (R10, R63). -/
def State.receiveProtect (s : State) (f : Frame) : State :=
  s.handOn .protect f fun s => s.takeProtect (readLine f.payload) f.origin.toNat

/-- CUE_LOAD (R55). -/
def execCueLoad (f : Frame) (s : State) : Host.Outcome State Fault Refusal :=
  .next (s.receiveCueLoad f)

/-- CUE_CLEAR (R61). -/
def execCueClear (f : Frame) (s : State) : Host.Outcome State Fault Refusal :=
  .next (s.receiveCueClear f)

/-- PROTECT (R63). -/
def execProtect (f : Frame) (s : State) : Host.Outcome State Fault Refusal :=
  .next (s.receiveProtect f)

end Sys2Proof.Machine
end

