-- ==== Sys2Proof/Machine/Gather.lean ====
section
/-! DEFINITION. Group arrival (06_move_planning_and_group_arrival.md, sections 6.3 to 6.6): opening, closing and
cancelling a gather, and the notes of the group. -/

namespace Sys2Proof.Machine

/-! ### Matching (R103) -/

/-- A tick lies within 20 ms either side of a record's tick (R71, R83, R103). -/
def ticksAgree (x y : Int) : Bool :=
  (x - y).natAbs ≤ 20

/-- A MOVE-NOTE matches an open gather (R103). -/
def Gather.matchesNote (g : Gather) (group cue : Nat) (tick : Int) : Bool :=
  g.group == group && g.cue == cue && ticksAgree tick g.goTick

/-- A MOVE-NOTE matches the finished gather record (R103). -/
def FinishedGather.matchesNote (g : FinishedGather) (group cue : Nat) (tick : Int) : Bool :=
  g.group == group && g.cue == cue && ticksAgree tick g.goTick

/-- An entry of the early note table matches a group, a cue and a tick (R103). -/
def EarlyNote.agrees (n : EarlyNote) (group cue : Nat) (tick : Int) : Bool :=
  n.group == group && n.cue == cue && ticksAgree tick n.goTick

/-! ### Closing and cancelling (R105, R107) -/

/-- The finished gather record takes the gather's group, cue and go tick, and the gather record becomes absent (R105, R107). -/
def State.finishGather (s : State) (g : Gather) : State :=
  s.withPlay
    { s.play with gather := none, finished := some { group := g.group, cue := g.cue, goTick := g.goTick } }

/-- The latest end a gather may plan to (R105 step 1). -/
def Gather.latestEnd (g : Gather) : Int :=
  g.closeTick + 4 * (max 15000 g.ownPlan : Nat)

/-- The effective end of a closing gather (R105 step 1). -/
def Gather.effectiveEnd (g : Gather) : Int :=
  min g.groupEnd g.latestEnd

/-- The plan a closing gather asks for, at the present show ms count (R105 step 2). -/
def State.closePlan (s : State) (g : Gather) : Plan :=
  s.plan s.play.pos.start s.play.pos.target (g.effectiveEnd - s.showTick).toNat (max 15000 g.ownPlan)

/-- A gather closes (R105). -/
def State.closeGather (s : State) (g : Gather) : State :=
  let plan := s.closePlan g
  let lanes := fadeFrom s.play.pos.start s.play.pos.moveMs plan s.showTick
  let s1 := ((s.withPos lanes).finishGather g).countStretched plan
  s1.tallyPlan fun t =>
    { t with
      gathersCapped := if g.latestEnd < g.groupEnd then sat t.gathersCapped else t.gathersCapped,
      gathersLengthened := if g.ownPlan < plan.length then sat t.gathersLengthened else t.gathersLengthened,
      gathersClosed := sat t.gathersClosed }

/-- An open gather is cancelled by a take or a release (R107). -/
def State.cancelGather (s : State) : State :=
  match s.play.gather with
  | some g => (s.finishGather g).tallyPlan fun t => { t with gathersCancelled := sat t.gathersCancelled }
  | none => s

/-! ### Opening (R101) -/

/-- A tick lies within the range of show ms (R101 step 2). -/
def isShowTick (t : Int) : Bool :=
  0 ≤ t && t ≤ 4294967295

/-- The gather a grouped take opens, with the early notes that match it taken up (R100, R101). -/
def newGather (window ownPlan group cue : Nat) (goTick delay : Int) (early : List EarlyNote) : Gather :=
  let close := goTick + delay + (window : Nat)
  let ownEnd := close + 4 * (ownPlan : Nat)
  let taken := early.filter fun n => n.agrees group cue goTick
  { group := group, cue := cue, goTick := goTick, closeTick := close, ownPlan := ownPlan, ownEnd := ownEnd,
    groupEnd := taken.foldl (fun e n => max e n.proposedEnd) ownEnd, notes := min taken.length 255 }

/-- The MOVE-NOTE of a gather (R102). -/
def Gather.note (g : Gather) : List Byte :=
  buildMoveNote { group := g.group, cue := g.cue, goTick := g.goTick.toNat, proposedEnd := g.ownEnd.toNat }

/-- A grouped take opens its gather, or makes a plain move where its ticks fall outside show time (R101). -/
def State.openGather (s : State) (start target : PerAxis Int) (moveMs group cue : Nat) (goTick delay : Int) : State :=
  let plan := s.plan start target moveMs 15000
  let g := newGather s.settings.gatherWindow plan.length group cue goTick delay s.play.early
  if !isShowTick goTick || !isShowTick g.ownEnd then
    s.setPlain start target moveMs (goTick + delay) s.showTick
  else
    let taken := (s.play.early.filter fun n => n.agrees group cue goTick).length
    let lanes : PosLanes :=
      { timing := { state := .wait .gather, startTick := g.closeTick, endTick := none }, start := start,
        target := plan.target, plan := none, moveMs := moveMs }
    let s1 := s.withPlay
      { s.play with
        pos := lanes, gather := some g, early := s.play.early.filter fun n => !n.agrees group cue goTick }
    let s2 := (s1.place .moveNote toAll g.note).tallyPlan fun t =>
      { t with notesMatched := satBy taken t.notesMatched, gathersOpened := sat t.gathersOpened }
    if g.closeTick ≤ s.showTick then s2.closeGather g else s2

/-! ### Notes from the group (R103, R104) -/

/-- The first of two early notes to be pushed out: the earlier set time, then the lower move group, then the lower cue
number (R104, log 19). -/
def EarlyNote.goesBefore (x y : EarlyNote) : Bool :=
  if x.setAt ≠ y.setAt then x.setAt < y.setAt
  else if x.group ≠ y.group then x.group < y.group
  else x.cue < y.cue

/-- The entry of the early note table to be pushed out (R104). -/
def earliestNote : List EarlyNote → Option EarlyNote
  | [] => none
  | n :: rest =>
    match earliestNote rest with
    | none => some n
    | some m => if m.goesBefore n then some m else some n

/-- The early note table without the entry to be pushed out (R104). -/
def dropEarliest (ns : List EarlyNote) : List EarlyNote :=
  match earliestNote ns with
  | some n => ns.erase n
  | none => ns

/-- A note is kept in the early note table (R104). -/
def State.keepEarly (s : State) (m : MoveNoteFields) : State :=
  let tick : Int := (m.goTick : Nat)
  let proposed : Int := (m.proposedEnd : Nat)
  let hits := fun (n : EarlyNote) => n.agrees m.group m.cue tick
  let entry : EarlyNote :=
    { group := m.group, cue := m.cue, goTick := tick, proposedEnd := proposed, setAt := s.uptime }
  if s.play.early.any hits then
    s.withPlay
      { s.play with
        early := s.play.early.map fun n =>
          if hits n then { n with proposedEnd := max n.proposedEnd proposed } else n }
  else if s.play.early.length < 4 then
    (s.withPlay { s.play with early := s.play.early ++ [entry] }).tallyPlan
      fun t => { t with earlyNotes := sat t.earlyNotes }
  else
    (s.withPlay { s.play with early := dropEarliest s.play.early ++ [entry] }).tallyPlan
      fun t => { t with earlyNotes := sat t.earlyNotes, earlyNotesLost := sat t.earlyNotesLost }

/-- A note raises or confirms the group end of the open gather (R103). -/
def Gather.hear (g : Gather) (proposed : Int) : Gather :=
  { g with groupEnd := max g.groupEnd proposed, notes := min (g.notes + 1) 255 }

/-- The Playback Unit takes a MOVE-NOTE whole (R103). -/
def State.takeMoveNote (s : State) (m : MoveNoteFields) : State :=
  let tick : Int := (m.goTick : Nat)
  if m.group = 0 ∨ 15 < m.group then s
  else
    match s.play.gather.filter fun g => g.matchesNote m.group m.cue tick with
    | some g =>
      (s.withPlay { s.play with gather := some (g.hear (m.proposedEnd : Nat)) }).tallyPlan
        fun t => { t with notesMatched := sat t.notesMatched }
    | none =>
      if s.play.finished.any fun g => g.matchesNote m.group m.cue tick then
        s.tallyPlan fun t => { t with lateNotes := sat t.lateNotes }
      else s.keepEarly m

/-! ### The commands -/

/-- An accepted MOVE-NOTE (R10, R103). -/
def State.receiveMoveNote (s : State) (f : Frame) : State :=
  s.handOn .moveNote f fun s => s.takeMoveNote (readMoveNote f.payload)

/-- MOVE_NOTE (R103). -/
def execMoveNote (f : Frame) (s : State) : Host.Outcome State Fault Refusal :=
  .next (s.receiveMoveNote f)

/-- GATHER_CLOSE (R105): show time has reached the open gather's close tick. -/
def execGatherClose (s : State) : Host.Outcome State Fault Refusal :=
  match s.play.gather with
  | some g => .next (if g.closeTick ≤ s.showTick then s.closeGather g else s)
  | none => .next s

/-- EARLY_NOTE_LAPSE (R104): an entry set 250 ms ago is removed. -/
def execEarlyNoteLapse (entry : Fin 4) (s : State) : Host.Outcome State Fault Refusal :=
  match s.play.early[entry.val]? with
  | some n =>
    .next (if s.earlyDue n then s.withPlay { s.play with early := s.play.early.eraseIdx entry.val } else s)
  | none => .next s

end Sys2Proof.Machine
end

