-- ==== Sys2Proof/Machine/Playback.lean ====
section
/-! DEFINITION. The Playback Unit (05_playback_and_lanes.md): lanes, GO, follow, dark moves, release and epoch rebase. -/

namespace Sys2Proof.Machine

/-! ### Level lanes set by a take or a release (R77) -/

/-- The timing of level lanes set with start tick S and end tick E at a present show ms count (R77). -/
def levelTiming (startTick endTick now : Int) : Timing :=
  if endTick ≤ now then { state := .hold, startTick := startTick, endTick := some endTick }
  else if now < startTick then { state := .wait .delay, startTick := startTick, endTick := some endTick }
  else { state := .fade, startTick := now, endTick := some endTick }

/-- INTENSITY set from its value now, which is its start value whatever its state becomes (R77). -/
def LevelLane.retarget (l : LevelLane) (target : Nat) (startTick endTick now : Int) : LevelLane :=
  { timing := levelTiming startTick endTick now, start := l.value now, target := target }

/-- The four colour lanes set from their values now (R77). -/
def ColourLanes.retarget (l : ColourLanes) (target : PerEmitter Nat) (startTick endTick now : Int) : ColourLanes :=
  { timing := levelTiming startTick endTick now, start := PerEmitter.of fun e => l.value e now, target := target }

/-! ### Lane ticks (R69) -/

/-- What a lane's timing becomes when show time reaches one of its ticks: a DELAY wait goes to FADE, or on to HOLD when
its end tick is reached too; a fade goes to HOLD (R69). -/
def State.tickTiming (s : State) (t : Timing) : Timing :=
  if s.laneDue t then { t with state := if s.tickReached t.endTick then .hold else .fade } else t

/-- The position lanes after a tick; in HOLD the start value is the target (R69). -/
def State.tickPos (s : State) (l : PosLanes) : PosLanes :=
  let tm := s.tickTiming l.timing
  { l with timing := tm, start := if tm.state = .hold then l.target else l.start }

/-- INTENSITY after a tick (R69). -/
def State.tickLevel (s : State) (l : LevelLane) : LevelLane :=
  let tm := s.tickTiming l.timing
  { l with timing := tm, start := if tm.state = .hold then l.target else l.start }

/-- The colour lanes after a tick (R69). -/
def State.tickColour (s : State) (l : ColourLanes) : ColourLanes :=
  let tm := s.tickTiming l.timing
  { l with timing := tm, start := if tm.state = .hold then l.target else l.start }

/-- The lanes of a group moved by show time reaching their tick (R69). -/
def State.tickLanes (s : State) (g : LaneGroup) : State :=
  if s.laneDue (s.play.timing g) then
    s.withPlay
      (match g with
        | .position => { s.play with pos := s.tickPos s.play.pos }
        | .intensity => { s.play with intensity := s.tickLevel s.play.intensity }
        | .colour => { s.play with colour := s.tickColour s.play.colour })
  else s

/-! ### What the consumers read at a boundary (R68, R69)

A consumer reads each lane as it stands once the ticks that show time has reached are taken, so that it reads the same value
whether the lane's tick or the reading comes first (R69, R90, R126, R142; log 41). -/

/-- PAN or TILT as a consumer reads it at a boundary's tick. -/
def State.positionAt (s : State) (x : Axis) (b : Int) : Int :=
  (s.tickPos s.play.pos).value x b

/-- INTENSITY as a consumer reads it at a boundary's tick. -/
def State.intensityAt (s : State) (b : Int) : Nat :=
  (s.tickLevel s.play.intensity).value b

/-- A colour lane as a consumer reads it at a boundary's tick. -/
def State.colourAt (s : State) (e : Emitter) (b : Int) : Nat :=
  (s.tickColour s.play.colour).value e b

/-! ### Taking a GO (R75 to R80) -/

/-- A position part's targets as lane values. -/
def PosPart.lanes (p : PosPart) : PerAxis Int :=
  { pan := (p.target.pan : Nat), tilt := (p.target.tilt : Nat) }

/-- Step 1 of a take: an open gather is cancelled, and its lanes are planned at once when the cue holds no position part
(R76). -/
def State.endGatherForTake (s : State) (q : Cue) : State :=
  match s.play.gather with
  | none => s
  | some _ =>
    if q.pos.isSome then s.cancelGather
    else s.cancelGather.setPlain s.play.pos.start s.play.pos.target s.play.pos.moveMs s.showTick s.showTick

/-- A take whose cue holds a position part sets PAN and TILT: dark, grouped or plain (R78). -/
def State.setPosition (s : State) (q : Cue) (p : PosPart) (goTick : Int) (isUnsynced : Bool) : State :=
  let start := s.play.pos.values s.showTick
  let startTick := goTick + (q.delay : Nat)
  if p.dark then
    s.withPos
      { timing := { state := .wait .dark, startTick := startTick, endTick := none }, start := start,
        target := p.lanes, plan := none, moveMs := p.moveMs }
  else if p.moveGroup ≠ 0 ∧ isUnsynced = false ∧ s.clock.synced = true then
    s.openGather start p.lanes p.moveMs p.moveGroup q.number goTick (q.delay : Nat)
  else s.setPlain start p.lanes p.moveMs startTick s.showTick

/-- The level lanes of the parts a cue holds, set by a take (R77); the others keep their records. -/
def State.setLevels (s : State) (q : Cue) (goTick : Int) : State :=
  let startTick := goTick + (q.delay : Nat)
  s.withPlay
    { s.play with
      intensity := (match q.int with
        | some i => s.play.intensity.retarget i.level startTick (startTick + (i.ms : Nat)) s.showTick
        | none => s.play.intensity),
      colour := (match q.col with
        | some c => s.play.colour.retarget c.levels startTick (startTick + (c.ms : Nat)) s.showTick
        | none => s.play.colour) }

/-- A GO resolved to a cue is taken, with its effective and carried go ticks (R76). -/
def State.takeGo (s : State) (q : Cue) (cueField : Nat) (goTick carried : Int) (isUnsynced : Bool) : State :=
  let s1 := s.endGatherForTake q
  let s2 := s1.withPlay { s1.play with follow := none, lastRelease := none }
  let s3 := s2.setLevels q goTick
  let s4 := match q.pos with
    | some p => s3.setPosition q p goTick isUnsynced
    | none => s3
  let s5 := s4.withPlay
    { s4.play with
      lastGo := some { cueField := cueField, resolved := q.number, tick := carried },
      follow := q.follow.map fun ms => { tick := goTick + (ms : Nat), source := q.number } }
  s5.tallyPlay fun t => { t with gosTaken := sat t.gosTaken }

/-- The cue a requested cue field asks for (R75). -/
def State.resolve (s : State) (cueField : Nat) : Option Cue :=
  if cueField = 0 then
    match s.play.lastGo with
    | some l => s.cues.cueAfter l.resolved
    | none => s.cues.firstCue
  else s.cues.cueNumbered cueField

/-- A GO is resolved and taken, or refused with NO-CUE (R75). -/
def State.go (s : State) (cueField : Nat) (goTick carried : Int) (origin : Nat) (isUnsynced : Bool) : State :=
  match s.resolve cueField with
  | some q => s.takeGo q cueField goTick carried isUnsynced
  | none => s.refuse .noCue cueField origin

/-- A CUE-GO is a duplicate of the pending GO or of the last-taken GO (R71). -/
def Playback.isDuplicateGo (p : Playback) (cueField : Nat) (tick : Int) : Bool :=
  (p.pendingGo.any fun g => ticksAgree tick g.tick && cueField == g.cueField)
    || (p.lastGo.any fun g => ticksAgree tick g.tick && (cueField == g.cueField || cueField == g.resolved))

/-- A pending GO leaves its slot for a later GO, and is counted (R72, R73). -/
def State.dropPending (s : State) : State :=
  match s.play.pendingGo with
  | some _ =>
    (s.withPlay { s.play with pendingGo := none }).tallyPlay
      fun t => { t with pendingReplaced := sat t.pendingReplaced }
  | none => s

/-- A CUE-GO that is no duplicate, on a synced clock (R72). -/
def State.syncedGo (s : State) (cueField : Nat) (tick : Int) (origin : Nat) : State :=
  let s1 := s.dropPending
  if s.showTick < tick then
    s1.withPlay { s1.play with pendingGo := some { cueField := cueField, tick := tick, origin := origin } }
  else if tick < s.showTick then
    (s1.tallyPlay fun t => { t with lateGos := sat t.lateGos }).go cueField tick tick origin false
  else s1.go cueField tick tick origin false

/-- A CUE-GO that is no duplicate, on a clock that is not synced (R73). -/
def State.unsyncedGo (s : State) (cueField : Nat) (tick : Int) (origin : Nat) : State :=
  (s.dropPending.tallyPlay fun t => { t with unsynced := sat t.unsynced }).go cueField s.showTick tick origin true

/-- The Playback Unit takes a CUE-GO whole (R71 to R73). -/
def State.takeCueGo (s : State) (f : TickFields) (origin : Nat) : State :=
  let tick : Int := (f.tick : Nat)
  if s.play.isDuplicateGo f.value tick then s.tallyPlay fun t => { t with duplicates := sat t.duplicates }
  else if s.clock.synced then s.syncedGo f.value tick origin
  else s.unsyncedGo f.value tick origin

/-- Show time reaches the pending GO's go tick (R74). -/
def State.takePendingGo (s : State) (g : PendingGo) : State :=
  (s.withPlay { s.play with pendingGo := none }).go g.cueField g.tick g.tick g.origin false

/-- Show time reaches the follow tick (R81). -/
def State.takeFollow (s : State) (f : FollowTimer) : State :=
  let s1 := s.withPlay { s.play with follow := none }
  match s1.cues.cueAfter f.source with
  | some q =>
    (s1.tallyPlay fun t => { t with followsTaken := sat t.followsTaken }).takeGo q q.number f.tick f.tick false
  | none => s1.refuse .noCue f.source 0

/-! ### Dark moves (R82) -/

/-- The Playback Unit takes a boundary: a DARK-waiting pair starts once its start tick is reached and INTENSITY reads 0
(R82). -/
def State.darkBoundary (s : State) (b : Int) : State :=
  let s1 := s.withMarks { s.marks with playback := s.marks.playback.tail }
  let l := s.play.pos
  if l.timing.state = .wait .dark ∧ l.timing.startTick ≤ b ∧ s.intensityAt b = 0 then
    s1.setPlain l.start l.target l.moveMs b b
  else s1

/-! ### Release (R83, R84) -/

/-- The lanes of a release with effective tick S and release time r: INTENSITY out, then a dark move to the park position
from setup (R84). -/
def State.releaseLanes (s : State) (startTick : Int) (ms : Nat) : State :=
  s.withPlay
    { s.play with
      intensity := s.play.intensity.retarget 0 startTick (startTick + (ms : Nat)) s.showTick,
      pos :=
        { timing := { state := .wait .dark, startTick := startTick, endTick := none },
          start := s.play.pos.values s.showTick,
          target := { pan := (s.settings.axes.pan.park : Nat), tilt := (s.settings.axes.tilt.park : Nat) },
          plan := none, moveMs := 0 } }

/-- A release that is no duplicate is taken (R83). -/
def State.takeRelease (s : State) (ms : Nat) (carried effective : Int) : State :=
  let s1 := s.cancelGather
  let s2 := s1.withPlay { s1.play with pendingGo := none, follow := none, lastRelease := some carried }
  (s2.releaseLanes effective ms).tallyPlay fun t => { t with releasesTaken := sat t.releasesTaken }

/-- The Playback Unit takes a CUE-RELEASE whole (R83). -/
def State.takeCueRelease (s : State) (f : TickFields) : State :=
  let tick : Int := (f.tick : Nat)
  let ms := min f.value 60000
  if s.play.lastRelease.any fun r => ticksAgree tick r then
    s.tallyPlay fun t => { t with duplicates := sat t.duplicates }
  else if s.clock.synced then
    if tick < s.showTick then
      (s.tallyPlay fun t => { t with lateGos := sat t.lateGos }).takeRelease ms tick tick
    else s.takeRelease ms tick tick
  else (s.tallyPlay fun t => { t with unsynced := sat t.unsynced }).takeRelease ms tick s.showTick

/-! ### Epoch rebase (R85, R86) -/

/-- The ticks of lanes in WAIT or FADE move by Δ; lanes in HOLD are left as they are (R85). -/
def Timing.shift (t : Timing) (d : Int) : Timing :=
  match t.state with
  | .hold => t
  | .wait _ => { t with startTick := t.startTick + d, endTick := t.endTick.map (· + d) }
  | .fade => { t with startTick := t.startTick + d, endTick := t.endTick.map (· + d) }

/-- The Playback Unit's ticks moved into the new epoch, the early notes and the finished gather given up (R85, R107). -/
def Playback.shift (p : Playback) (d : Int) : Playback :=
  { p with
    pos := { p.pos with timing := p.pos.timing.shift d },
    intensity := { p.intensity with timing := p.intensity.timing.shift d },
    colour := { p.colour with timing := p.colour.timing.shift d },
    pendingGo := p.pendingGo.map fun g => { g with tick := g.tick + d },
    lastGo := p.lastGo.map fun g => { g with tick := g.tick + d },
    follow := p.follow.map fun f => { f with tick := f.tick + d },
    lastRelease := p.lastRelease.map (· + d),
    gather := none, finished := none, early := [] }

/-- The boundaries not yet taken, as ticks of the new epoch (log 16). -/
def Marks.shift (m : Marks) (epoch : Nat) (d : Int) : Marks :=
  { epoch := epoch, playback := m.playback.map (· + d),
    axes := { pan := m.axes.pan.map (· + d), tilt := m.axes.tilt.map (· + d) },
    colour := m.colour.map (· + d), feed := m.feed.map (· + d) }

/-- The Playback Unit's epoch rebase, made once show time reads the new epoch (R85, R86). -/
def State.rebase (s : State) (d : Int) : State :=
  let s1 := (s.withMarks (s.marks.shift s.clock.epoch d)).withPlay (s.play.shift d)
  let s2 := s1.tallyPlay fun t =>
    { t with
      rebases := sat t.rebases,
      gathersCancelledByRebase :=
        if s.play.gather.isSome then sat t.gathersCancelledByRebase else t.gathersCancelledByRebase }
  if s.play.gather.isSome then
    s2.setPlain s.play.pos.start s.play.pos.target s.play.pos.moveMs s.showTick s.showTick
  else s2

/-! ### The commands -/

/-- An accepted CUE-GO (R10, R72). -/
def State.receiveCueGo (s : State) (f : Frame) : State :=
  s.handOn .cueGo f fun s => s.takeCueGo (readTickFields f.payload) f.origin.toNat

/-- An accepted CUE-RELEASE (R10, R83). -/
def State.receiveCueRelease (s : State) (f : Frame) : State :=
  s.handOn .cueRelease f fun s => s.takeCueRelease (readTickFields f.payload)

/-- CUE_GO (R72). -/
def execCueGo (f : Frame) (s : State) : Host.Outcome State Fault Refusal :=
  .next (s.receiveCueGo f)

/-- PENDING_GO_TICK (R74). -/
def execPendingGoTick (s : State) : Host.Outcome State Fault Refusal :=
  match s.play.pendingGo with
  | some g => .next (if g.tick ≤ s.showTick then s.takePendingGo g else s)
  | none => .next s

/-- FOLLOW_TICK (R81). -/
def execFollowTick (s : State) : Host.Outcome State Fault Refusal :=
  match s.play.follow with
  | some f => .next (if f.tick ≤ s.showTick then s.takeFollow f else s)
  | none => .next s

/-- LANE_TICK (R69). -/
def execLaneTick (g : LaneGroup) (s : State) : Host.Outcome State Fault Refusal :=
  .next (s.tickLanes g)

/-- CUE_RELEASE (R83). -/
def execCueRelease (f : Frame) (s : State) : Host.Outcome State Fault Refusal :=
  .next (s.receiveCueRelease f)

/-- DARK_START (R82): the Playback Unit takes a boundary that has occurred. -/
def execDarkStart (s : State) : Host.Outcome State Fault Refusal :=
  match s.marks.playback with
  | b :: _ => .next (s.darkBoundary b)
  | [] => .next s

end Sys2Proof.Machine
end

