-- ==== Sys2Proof/Machine/Colour.lean ====
section
/-! DEFINITION. The Colour Renderer (07_colour_rendering_and_group_matching.md), with the Peer Table's match minima that
it asks for (R34). -/

namespace Sys2Proof.Machine

/-! ### Match minima (R34) -/

/-- The match part of a record that counts for a match group: present, of that group, OUT-OF-MATCH clear (R34). -/
def PeerRecord.countsIn (group : Nat) (r : PeerRecord) : Option MatchPart :=
  r.matchPart.filter fun m => m.group == group && !m.outOfMatch

/-- The smallest of a list of ceilings, or none (R34). -/
def leastOf : List Nat → Option Nat
  | [] => none
  | x :: rest =>
    match leastOf rest with
    | some y => some (min x y)
    | none => some x

/-- The match minimum of one emitter in a match group (R34). -/
def matchMinimum (peers : List PeerRecord) (group : Nat) (e : Emitter) : Option Nat :=
  leastOf ((peers.filterMap (PeerRecord.countsIn group)).map fun m => m.ceilings.get e)

/-- The five values the Peer Table answers when asked for the match minima: the four minima, and the number of records
they are taken from (R34). -/
structure MatchAnswer where
  minima : PerEmitter (Option Nat)
  count : Nat
deriving DecidableEq, Repr

/-- The Peer Table's answer for a match group (R34). -/
def matchAnswer (peers : List PeerRecord) (group : Nat) : MatchAnswer :=
  { minima := PerEmitter.of (matchMinimum peers group),
    count := (peers.filterMap (PeerRecord.countsIn group)).length }

/-! ### Derate and announcement state (R113, R114) -/

/-- The entry that gives the derate: among those at or below the temperature, the highest threshold, and the lowest
derate among those that share it (R113). -/
def bestEntry (temp : Int) : List DeratingEntry → Option DeratingEntry
  | [] => none
  | x :: rest =>
    match bestEntry temp rest with
    | none => if x.threshold ≤ temp then some x else none
    | some y =>
      if x.threshold ≤ temp ∧ (y.threshold < x.threshold ∨ (x.threshold = y.threshold ∧ x.derate < y.derate)) then
        some x
      else some y

/-- The derate at a temperature (R113). -/
def derateAt (table : List DeratingEntry) (temp : Int) : Nat :=
  match bestEntry temp table with
  | some x => x.derate
  | none => 1000

/-- The announcement state after a boundary at pull factor `p` and uptime `up` (R114). -/
def Colour.announce (c : Colour) (p up : Nat) : Colour :=
  if c.announced then
    if p < 1000 then { c with pAnn := p, unpulledSince := none }
    else
      let since := c.unpulledSince.getD up
      if since + 500 ≤ up then { c with announced := false, pAnn := 1000, unpulledSince := none }
      else { c with unpulledSince := some since }
  else
    if p < 1000 then
      let since := c.pulledSince.getD up
      if since + 500 ≤ up then { c with announced := true, pAnn := p, pulledSince := none }
      else { c with pulledSince := some since }
    else { c with pulledSince := none }

/-! ### Achievable output, flag, ceilings (R115 to R118) -/

/-- The achievable output of an emitter (R115). -/
def achievableOutput (full derate pAnn : Nat) : Nat :=
  full * derate / 1000 * pAnn / 1000

/-- The OUT-OF-MATCH flag (R116). -/
def outOfMatchAt (derate floor : Nat) (isTripped : Bool) : Bool :=
  decide (derate < floor) || derate == 0 || isTripped

/-- The target ceiling of an emitter, from the match minimum the Peer Table answers (R117). -/
def targetCeiling (group : Nat) (isOut : Bool) (a : Nat) (minimum : Option Nat) : Nat :=
  if group = 0 ∨ isOut = true then a
  else
    match minimum with
    | some m => min a m
    | none => a

/-- The glide step of an emitter (R118). -/
def glideStep (full : Nat) : Nat :=
  max 1 (full / 512)

/-- The rendered ceiling after a boundary (R118). -/
def renderedCeiling (group full a c r : Nat) : Nat :=
  if group = 0 then a
  else if a < r then a
  else if r < c then min (r + glideStep full) c
  else if c < r then max (r - glideStep full) c
  else r

/-! ### Duty and dither (R121, R122, R124) -/

/-- The unpulled duty16 of an emitter (R121). -/
def unpulledDuty (r a level intensity : Nat) : Nat :=
  if a = 0 then 0
  else min (roundDiv ((r * level * intensity * 65536 : Nat) : Int) (a * 1000000)).toNat 65536

/-- The on-count of the `j`-th period of a dither schedule (R124). -/
def EmitterState.onCount (e : EmitterState) (j : Nat) : Nat :=
  if j ≤ e.frac then e.base + 1 else e.base

/-- One emitter after a boundary, from the results of the steps before it (R115, R117, R118, R121, R122, R124). A period
that starts at the boundary's own instant keeps the preload it has (R124: "strictly after the boundary"). -/
def EmitterState.render (e : EmitterState) (group full derate pAnn dutyPull : Nat) (isOut isForced keepPreload : Bool)
    (minimum : Option Nat) (level intensity : Nat) : EmitterState :=
  let a := achievableOutput full derate pAnn
  let c := targetCeiling group isOut a minimum
  let r := renderedCeiling group full a c e.rendered
  let u := if isForced then 0 else unpulledDuty r a level intensity
  let d := u * dutyPull / 1000
  let e' : EmitterState :=
    { e with
      achievable := a, target := c, rendered := r, unpulled := u, duty := d, base := d / 16, frac := d % 16 }
  { e' with preload := if keepPreload then e.preload else e'.onCount 1 }

/-- How many of four emitters have their rendered ceiling cut at a boundary (R118, R127). -/
def cutCount (before after : PerEmitter EmitterState) : Nat :=
  [Emitter.red, .green, .blue, .white].countP fun e =>
    decide ((after.get e).achievable < (before.get e).rendered)

/-! ### MATCH-NOTEs (R119, R120) -/

/-- What a MATCH-NOTE placed now carries (R119). -/
def State.announcement (s : State) : Announcement :=
  { group := s.settings.matchGroup, outOfMatch := s.colour.outOfMatch, pulled := s.colour.announced,
    ceilings := PerEmitter.of fun e => (s.colour.emitters.get e).achievable }

/-- A MATCH-NOTE is placed: the last-announced record and the next match time are set, and it is counted (R119). `owed`
says whether the note of the next match time is still to be placed after it (log 37). -/
def State.sendMatchNote (s : State) (owed : Bool) : State :=
  let n := s.announcement
  let s1 := s.withColour
    { s.colour with
      lastAnnounced := some n, nextMatch := some (s.uptime + 2 * s.settings.beaconInterval), noteOwed := owed }
  (s1.place .matchNote toAll (buildMatchNote n)).tallyColour
    fun t => { t with matchNotesPlaced := sat t.matchNotesPlaced }

/-- The next match time has been reached and its MATCH-NOTE has not been placed (R120, R126). -/
def State.matchNoteDue (s : State) : Bool :=
  s.reached s.colour.nextMatch || s.colour.noteOwed

/-- A MATCH-NOTE placed by a boundary: one that the next match time is due at the same instant stays owed beside it, for a
"further note" is placed "in either order" (R126). -/
def State.placeMatchNote (s : State) : State :=
  s.sendMatchNote s.matchNoteDue

/-- An achievable output differs from the last-announced ceiling by 1/64 of it or more (R119). -/
def ceilingMoved (a announced : Nat) : Bool :=
  a ≠ announced && decide (announced ≤ 64 * ((a : Int) - announced).natAbs)

/-- The change test of a boundary (R119). -/
def Announcement.changed (old new : Announcement) : Bool :=
  old.outOfMatch != new.outOfMatch || old.pulled != new.pulled
    || ceilingMoved new.ceilings.red old.ceilings.red || ceilingMoved new.ceilings.green old.ceilings.green
    || ceilingMoved new.ceilings.blue old.ceilings.blue || ceilingMoved new.ceilings.white old.ceilings.white

/-- A boundary places a MATCH-NOTE: the first, once the first BEACON has been placed (R120), or on a change (R119). -/
def State.matchNoteAtBoundary (s : State) : Bool :=
  s.settings.matchGroup ≠ 0 &&
    match s.colour.lastAnnounced with
    | none => s.clock.nextBeacon.isSome
    | some old => old.changed s.announcement

/-! ### The boundary (R112) -/

/-- The renderer's state after a boundary with tick `b`, before the change test (R112). -/
def State.renderAt (s : State) (b : Int) : Colour :=
  let st := s.settings
  let derate := derateAt st.derating s.sense.emitterTemp
  let c1 := { s.colour with derate := derate }.announce s.feed.pull s.uptime
  let isOut := outOfMatchAt derate st.matchFloor s.feed.isTripped
  let dutyPull := if c1.announced then c1.pAnn else s.feed.pull
  let keep := decide (3 * s.colour.nextPeriod ≤ s.clock.thirds)
  { c1 with
    outOfMatch := isOut,
    emitters := PerEmitter.of fun e =>
      (s.colour.emitters.get e).render st.matchGroup (st.fullOutput.get e) derate c1.pAnn dutyPull isOut s.forcedZero
        keep ((matchAnswer s.peers st.matchGroup).minima.get e) (s.colourAt e b) (s.intensityAt b),
    scheduleAt := s.clock.thirds, periodsStarted := 0 }

/-- The Colour Renderer takes a boundary whole (R112). -/
def State.colourBoundary (s : State) (b : Int) : State :=
  let c := s.renderAt b
  let s1 := (s.withMarks { s.marks with colour := s.marks.colour.tail }).withColour c
  let s2 := s1.tallyColour fun t =>
    { t with
      pullAnnouncements := if c.announced && !s.colour.announced then sat t.pullAnnouncements else t.pullAnnouncements,
      outOfMatchEntries := if c.outOfMatch && !s.colour.outOfMatch then sat t.outOfMatchEntries else t.outOfMatchEntries,
      ceilingCuts := satBy (cutCount s.colour.emitters c.emitters) t.ceilingCuts }
  if s2.matchNoteAtBoundary then s2.placeMatchNote else s2

/-! ### Forced zero and the emitter outputs (R123, R125) -/

/-- An emitter whose duty is forced to 0: schedule, preload and running on-count 0 at once (R123, R125). -/
def EmitterState.douse (e : EmitterState) : EmitterState :=
  { e with unpulled := 0, duty := 0, base := 0, frac := 0, preload := 0, running := 0 }

/-- Every emitter forced to 0 at the instant a cause begins (R123). -/
def State.douse (s : State) : State :=
  s.withColour { s.colour with emitters := PerEmitter.of fun e => (s.colour.emitters.get e).douse }

/-- A period that starts counts under the schedule unless it starts at the boundary's own instant (R124). -/
def State.periodsAfterStart (s : State) : Nat :=
  if s.colour.scheduleAt = s.clock.thirds then s.colour.periodsStarted else s.colour.periodsStarted + 1

/-- An emitter PWM period starts: each channel takes its on-count from its preload, and the schedule places the next
period's (R124, R125). -/
def State.emitterPeriod (s : State) : State :=
  let n := s.periodsAfterStart
  s.withColour
    { s.colour with
      periodsStarted := n, nextPeriod := s.colour.nextPeriod + 250,
      emitters := PerEmitter.of fun e =>
        let x := s.colour.emitters.get e
        { x with running := x.preload, preload := x.onCount (n + 1) } }

/-- The level of an emitter output at a count of its PWM period: undriven until the setup record has been read and while
the reset line is held, then at its on level for the first on-count counts (R125, R183). -/
def State.emitterLevel (s : State) (e : Emitter) (count : Nat) : Option Bool :=
  if s.setup.readDone then
    some (if count < (s.colour.emitters.get e).running then !s.settings.activeLow.get e else s.settings.activeLow.get e)
  else none

/-! ### The commands -/

/-- COLOUR_BOUNDARY (R112): the Colour Renderer takes a boundary that has occurred. -/
def execColourBoundary (s : State) : Host.Outcome State Fault Refusal :=
  match s.marks.colour with
  | b :: _ => .next (s.colourBoundary b)
  | [] => .next s

/-- NEXT_MATCH_TIME (R120, R126). -/
def execNextMatchTime (s : State) : Host.Outcome State Fault Refusal :=
  .next (if s.matchNoteDue then s.sendMatchNote false else s)

/-- EMITTER_PWM_PERIOD (R125). -/
def execEmitterPwmPeriod (s : State) : Host.Outcome State Fault Refusal :=
  .next (if 3 * s.colour.nextPeriod ≤ s.clock.thirds then s.emitterPeriod else s)

end Sys2Proof.Machine
end

