-- ==== Sys2Proof/Machine/Axis.lean ====
section
/-! DEFINITION. The axis drivers (08_axis_drive.md) with homing as a boundary moves it on (09_sensing_index_check_and_homing.md,
sections 9.3 and 9.4). -/

namespace Sys2Proof.Machine

/-! ### The follow limiter (R132, R133) -/

/-- The position of an axis: floor(pos16 / 16) (R128). -/
def AxisState.position (a : AxisState) : Int :=
  a.pos16 / 16

/-- The stopping distance of a speed `w` shed at `aEff` a render frame: the sum of w, w − aEff, … over the terms above 0
(R132). -/
def stoppingDistance (aEff w : Nat) : Nat :=
  let n := ceilDiv w aEff
  n * w - aEff * (n * (n - 1) / 2)

/-- The brake cap: the largest whole speed whose stopping distance is at most the error (R132). -/
def brakeCap (aEff err : Nat) : Nat :=
  largestSuch (fun w => decide (stoppingDistance aEff w ≤ err)) (err.log2 + 1)

/-- A velocity brought toward an aim by no more than `aEff` (R132 step 5, R133, R155). -/
def toward (aEff : Nat) (v aim : Int) : Int :=
  clampInt (v - (aEff : Nat)) (v + (aEff : Nat)) aim

/-- The follow limiter's velocity (R132). -/
def followVelocity (vmax aEff : Nat) (setpoint pos16 v16 : Int) : Int :=
  let e := setpoint * 16 - pos16
  let bound : Int := (min (16 * vmax) (brakeCap aEff e.natAbs) : Nat)
  toward aEff v16 (clampInt (-bound) bound e)

/-- The velocity a boundary sets, by the axis mode (R129, R132, R133, R155). -/
def AxisState.boundaryVelocity (a : AxisState) (st : AxisSettings) (aEff : Nat) (setpoint : Int) : Int :=
  match a.mode with
  | .ready => followVelocity st.vmax aEff setpoint a.pos16 a.v16
  | .homing .returning => followVelocity st.vmax aEff setpoint a.pos16 a.v16
  | .homing .seek => toward aEff a.v16 (-(16 * (st.homingSpeed : Nat) : Int))
  | .homing .backoff => toward aEff a.v16 (-(16 * (st.homingSpeed : Nat) : Int))
  | .homing .approach => toward aEff a.v16 (if a.reference.isSome then 0 else 2 * (st.homingSpeed : Nat))
  | .homing .set => toward aEff a.v16 0
  | .unsure => toward aEff a.v16 0
  | .failed => toward aEff a.v16 0
  | .tripped => toward aEff a.v16 0

/-- The new velocity taken and the position moved by it, held within the range of pos16 (R128, R133). -/
def AxisState.move (a : AxisState) (v : Int) : AxisState :=
  { a with v16 := v, pos16 := clampInt (-134217728) 134217727 (a.pos16 + v) }

/-- The axis is settled: on its setpoint and standing (R133). -/
def AxisState.settled (a : AxisState) (setpoint : Int) : Bool :=
  setpoint * 16 - a.pos16 == 0 && a.v16 == 0

/-! ### Coils and bridges (R137, R138, R139) -/

/-- The quarter-sine table, per-mille (R137). -/
def quarterSine : List Nat :=
  [0, 98, 195, 290, 383, 471, 556, 634, 707, 773, 831, 882, 924, 957, 981, 995, 1000]

/-- The value of coil A or B at a microstep, signed per-mille, before the direction setting (R137). -/
def coilTable (c : Coil) (m : Int) : Int :=
  let index := (m % 64).toNat
  let k := index % 16
  let up : Int := (quarterSine.getD k 0 : Nat)
  let down : Int := (quarterSine.getD (16 - k) 0 : Nat)
  match c, index / 16 with
  | .a, 0 => up
  | .a, 1 => down
  | .a, 2 => -up
  | .a, _ => -down
  | .b, 0 => down
  | .b, 1 => -up
  | .b, 2 => -down
  | .b, _ => up

/-- The coil value at a microstep: REVERSED inverts the sign of coil B (R137). -/
def coilValue (isReversed : Bool) (c : Coil) (m : Int) : Int :=
  match c with
  | .a => coilTable .a m
  | .b => if isReversed then -coilTable .b m else coilTable .b m

/-- The bridge duty of a coil value at an axis current (R138). -/
def bridgeDuty (fullScale value current : Nat) : Nat :=
  min (roundDiv ((1600 * value * current : Nat) : Int) (1000 * fullScale)).toNat 1600

/-- What a coil's preload holds: the drive of the present output microstep at the present axis current; duty 0 while the
current is none or the bridges are not driven (R138, R140). -/
def AxisState.coilDrive (a : AxisState) (st : AxisSettings) (c : Coil) : Drive :=
  let v := coilValue st.isReversed c a.output
  match a.current with
  | some i =>
    if a.driven then { duty := bridgeDuty st.fullScale v.natAbs i, negative := decide (v < 0) }
    else { duty := 0, negative := decide (v < 0) }
  | none => { duty := 0, negative := decide (v < 0) }

/-- Both preloads rewritten (R138). -/
def AxisState.rewrite (a : AxisState) (st : AxisSettings) : AxisState :=
  { a with
    coilA := { a.coilA with preload := a.coilDrive st .a },
    coilB := { a.coilB with preload := a.coilDrive st .b } }

/-- The walk advances by one period (R136). -/
def AxisState.walkOn (a : AxisState) : AxisState :=
  if a.walk.walked < 100 then
    let j := a.walk.walked + 1
    { a with
      output := a.walk.origin + ((a.walk.target - a.walk.origin) * (j : Nat)).tdiv 100,
      walk := { a.walk with walked := j } }
  else a

/-- A bridge PWM period of one axis: the bridges take their preloads, the walk advances, the preloads are rewritten
(R138). -/
def AxisState.period (a : AxisState) (st : AxisSettings) : AxisState :=
  let a1 : AxisState :=
    { a with
      live := a.driven, coilA := { a.coilA with running := a.coilA.preload },
      coilB := { a.coilB with running := a.coilB.preload } }
  a1.walkOn.rewrite st

/-- What a bridge does with its four switches (R130, R139). -/
inductive Switches where
  /-- All four open: OFF, and the idle level FLOAT. -/
  | allOpen
  /-- Both low-side switches closed: RECIRCULATE, and the idle level BRAKE. -/
  | lowClosed
  /-- The diagonal pair closed that drives current in a direction: DRIVE. -/
  | drive (negative : Bool)
deriving DecidableEq, Repr

/-- The state of a bridge at a count of its PWM period with running drive `d` and deadtime `dead` (R139). -/
def switchesAt (dead : Nat) (d : Drive) (count : Nat) : Switches :=
  if d.duty < 2 * dead then .lowClosed
  else if 1600 - 2 * dead < d.duty then .drive d.negative
  else if count < d.duty then .drive d.negative
  else if count < d.duty + dead then .allOpen
  else if count < 1600 - dead then .lowClosed
  else .allOpen

/-- The bridge outputs of a coil at a count of the PWM period: undriven until the setup record has been read and while
the reset line is held, at the idle level while the axis is not driven (R130, R139, R177, R183). -/
def State.bridgeState (s : State) (x : Axis) (c : Coil) (count : Nat) : Option Switches :=
  let a := s.axes.get x
  if s.setup.readDone then
    if a.live && a.driven then
      some (switchesAt s.settings.deadtime (match c with
        | .a => a.coilA.running
        | .b => a.coilB.running) count)
    else some (if (s.settings.axes.get x).brake then .lowClosed else .allOpen)
  else none

/-! ### Lag and current (R134, R135) -/

/-- The lag after a boundary, by the mode the boundary leaves (R134). DESIGN CHOICE: a lag above 54000, of which the spec
states no result, is held as it is (log 39). -/
def AxisState.lagAt (a : AxisState) (setpoint : Int) : Option Nat :=
  match a.mode with
  | .ready => some (setpoint - a.position).natAbs
  | .homing .returning => some (setpoint - a.position).natAbs
  | .homing .seek => none
  | .homing .backoff => none
  | .homing .approach => none
  | .homing .set => none
  | .unsure => none
  | .failed => none
  | .tripped => none

/-- Whether the axis runs at its grant, by the row of R135 that applies; absent in TRIPPED. -/
def runRow (row : AxisMode) (isMoving laneFades : Bool) : Option Bool :=
  match row with
  | .ready => some (isMoving || laneFades)
  | .homing .returning => some (isMoving || laneFades)
  | .homing .seek => some true
  | .homing .backoff => some true
  | .homing .approach => some true
  | .homing .set => some isMoving
  | .unsure => some isMoving
  | .failed => some isMoving
  | .tripped => none

/-- The axis current and run flag after a boundary (R135). -/
def AxisState.setCurrent (a : AxisState) (row : AxisMode) (laneFades : Bool) (grant hold : Nat) : AxisState :=
  match runRow row (a.v16 != 0) laneFades with
  | some true => { a with current := some grant, running := true }
  | some false => { a with current := some hold, running := false }
  | none => { a with current := none, running := false }

/-- A new walk from the output as it stands to the position (R136). -/
def AxisState.newWalk (a : AxisState) : AxisState :=
  { a with walk := { origin := a.output, target := a.position, walked := 0 } }

/-! ### Homing begins, and what a boundary does to the mode (R152 to R159) -/

/-- Homing begins for an axis (R154). DESIGN CHOICE: the axis current stays as it is, so of an axis that was TRIPPED it is none,
and its duties are 0, until its next boundary (R135, R141; log 43). -/
def AxisState.beginHoming (a : AxisState) : AxisState :=
  { a with
    mode := .homing .seek, slipPending := false, pass := none, request := none, lag := none,
    phaseEntry := a.position, reference := none }

/-- The count moved by whole microsteps: position, held within its range, output and walk together (R128, R151, R158). -/
def AxisState.shiftCount (a : AxisState) (d : Int) : AxisState :=
  { a with
    pos16 := clampInt (-134217728) 134217727 (a.pos16 + 16 * d), output := a.output + d,
    walk := { a.walk with origin := a.walk.origin + d, target := a.walk.target + d } }

/-- SET is entered and left: the microstep at which the flag rose becomes the rise position (R158). -/
def AxisState.setPhase (a : AxisState) (rise reference : Int) : AxisState :=
  let a1 := a.shiftCount (rise - reference)
  { a1 with mode := .homing .returning, pass := none, phaseEntry := a1.position }

/-- What a boundary can do to the mode of an axis. -/
inductive AxisEvent where
  | nothing
  /-- A homing phase ran past 1.1 × the travel (R156). -/
  | homingFailed
  /-- SET was entered and left for RETURN (R158). -/
  | countSet
  /-- RETURN ended in READY (R159). -/
  | homed
  /-- A pending slip was acted on (R152). -/
  | slipActed
deriving DecidableEq, Repr

/-- The phase has run further than 1.1 × the travel from its entry (R156). -/
def AxisState.overrun (a : AxisState) (x : Axis) : Bool :=
  11 * travel x < 10 * (a.position - a.phaseEntry).natAbs

/-- What the boundary that has just moved the axis does to its mode (R152, R155, R156, R158, R159; log 21). -/
def AxisState.eventAt (a : AxisState) (x : Axis) (setpoint : Int) : AxisEvent :=
  match a.mode with
  | .homing .seek => if a.overrun x then .homingFailed else .nothing
  | .homing .backoff => if a.overrun x then .homingFailed else .nothing
  | .homing .approach =>
    if a.overrun x then .homingFailed
    else if a.reference.isSome && a.v16 == 0 then .countSet
    else .nothing
  | .homing .returning =>
    if a.settled setpoint then (if a.slipPending then .slipActed else .homed) else .nothing
  | .ready => if a.settled setpoint && a.slipPending then .slipActed else .nothing
  | .homing .set => .nothing
  | .unsure => .nothing
  | .failed => .nothing
  | .tripped => .nothing

/-- The axis after that event. -/
def AxisState.applyEvent (a : AxisState) (st : AxisSettings) (e : AxisEvent) : AxisState :=
  match e with
  | .nothing => a
  | .homingFailed => { a with mode := .failed, pass := none }
  | .countSet => a.setPhase (st.risePos : Nat) (a.reference.getD 0)
  | .homed => { a with mode := .ready }
  | .slipActed => { a with mode := .unsure, slipPending := false, pass := none, request := some .slip }

/-- A SLIP request begins homing: at once with rehome-in-dark clear, otherwise when INTENSITY reads 0 (R153). -/
def AxisState.slipRequestTaken (a : AxisState) (st : AxisSettings) (intensity : Nat) : Bool :=
  a.request == some .slip && (!st.rehomeInDark || intensity == 0)

/-- Counts what a boundary did to an axis (R156, R159). -/
def AxisStats.countEvent (t : AxisStats) (e : AxisEvent) : AxisStats :=
  match e with
  | .homingFailed => { t with homingFailures := sat t.homingFailures }
  | .homed => { t with homesCompleted := sat t.homesCompleted }
  | .nothing => t
  | .countSet => t
  | .slipActed => t

/-- The lag after a boundary and what it did to the mode: "at a boundary at which the axis leaves READY or RETURN, the
lag becomes absent" (R134; log 21). -/
def AxisState.lagAfter (a : AxisState) (e : AxisEvent) (setpoint : Int) : Option Nat :=
  match e with
  | .homed => none
  | .nothing => a.lagAt setpoint
  | .homingFailed => a.lagAt setpoint
  | .countSet => a.lagAt setpoint
  | .slipActed => a.lagAt setpoint

/-- The lag, current, run flag, walk and preloads of a boundary, after the velocity, position and mode (R131). -/
def AxisState.finishBoundary (a : AxisState) (st : AxisSettings) (row : AxisMode) (laneFades : Bool) (e : AxisEvent)
    (setpoint : Int) (grant : Nat) : AxisState :=
  let a1 := { a with lag := a.lagAfter e setpoint }
  ((a1.setCurrent row laneFades grant st.holdCurrent).newWalk).rewrite st

/-- The axis moved by a boundary, before the homing rules (R131 to R133). -/
def State.axisMoved (s : State) (x : Axis) (b : Int) : AxisState :=
  let st := s.settings.axes.get x
  let a := s.axes.get x
  let setpoint := s.positionAt x b
  a.move (a.boundaryVelocity st (effectiveAccel st (s.feed.grant.get x)) setpoint)

/-- An axis driver takes a boundary whole (R131). The row of R135 is SET's at the boundary that enters SET (R158). DESIGN CHOICE:
whether the lane is in FADE is read from its record as it stands (log 42). -/
def State.axisBoundary (s : State) (x : Axis) (b : Int) : State :=
  let st := s.settings.axes.get x
  let setpoint := s.positionAt x b
  let moved := s.axisMoved x b
  let event := moved.eventAt x setpoint
  let a1 := moved.applyEvent st event
  let homes := a1.slipRequestTaken st (s.intensityAt b)
  let a2 := if homes then a1.beginHoming else a1
  let row := if event = .countSet then .homing .set else a2.mode
  let a3 := a2.finishBoundary st row (decide (s.play.pos.timing.state = .fade)) event setpoint (s.feed.grant.get x)
  let s1 := (s.withMarks { s.marks with axes := s.marks.axes.set x (s.marks.axes.get x).tail }).withAxis x a3
  let s2 := s1.tallyAxis x fun t =>
    let t1 := t.countEvent event
    if homes then { t1 with homesBegun := sat t1.homesBegun } else t1
  if homes then s2.douse else s2

/-! ### Homing begun by an ask or by bridge enable (R153, R154) -/

/-- Homing begins for an axis, is counted, and douses the emitters (R154, R123). -/
def State.beginHoming (s : State) (x : Axis) : State :=
  ((s.withAxis x ((s.axes.get x).beginHoming.rewrite (s.settings.axes.get x))).tallyAxis x
    fun t => { t with homesBegun := sat t.homesBegun }).douse

/-! ### Overcurrent (R140) -/

/-- A bridge with its preload and running duties 0 (R140). -/
def Bridge.cut (b : Bridge) : Bridge :=
  { preload := { b.preload with duty := 0 }, running := { b.running with duty := 0 } }

/-- An axis tripped by an overcurrent event: its bridges idle at once, its current none, its pass, slip and SLIP request
given up (R129, R140, R149, R152, R153; log 22). The run flag stands until the next boundary clears it (R135). -/
def AxisState.trip (a : AxisState) : AxisState :=
  { a with
    mode := .tripped, live := false, coilA := a.coilA.cut, coilB := a.coilB.cut, lag := none, current := none,
    pass := none, slipPending := false, request := if a.request = some .slip then none else a.request }

/-- An overcurrent event of an axis (R140). DESIGN CHOICE: an axis counts as driven from the instant R130 makes it so, and so
trips before the first PWM period that drives it too (log 40). -/
def State.overcurrent (s : State) (x : Axis) : State :=
  if (s.axes.get x).driven then
    (s.withAxis x (s.axes.get x).trip).tallyAxis x fun t => { t with bridgeTrips := sat t.bridgeTrips }
  else s

/-! ### The commands -/

/-- AXIS_BOUNDARY (R131): an axis driver takes a boundary that has occurred. -/
def execAxisBoundary (x : Axis) (s : State) : Host.Outcome State Fault Refusal :=
  match s.marks.axes.get x with
  | b :: _ => .next (s.axisBoundary x b)
  | [] => .next s

/-- A bridge PWM period of both axes, which share one period timer (R139). -/
def State.bridgePeriod (s : State) : State :=
  (s.withAxes
    { pan := s.axes.pan.period s.settings.axes.pan, tilt := s.axes.tilt.period s.settings.axes.tilt }).withBridgeNext
    (s.bridgeNext + 40)

/-- BRIDGE_PWM_PERIOD (R138). -/
def execBridgePwmPeriod (s : State) : Host.Outcome State Fault Refusal :=
  .next (if 3 * s.bridgeNext ≤ s.clock.thirds then s.bridgePeriod else s)

/-- OVERCURRENT_EVENT (R140): either comparator of an axis. -/
def execOvercurrentEvent (x : Axis) (_c : Coil) (s : State) : Host.Outcome State Fault Refusal :=
  .next (s.overcurrent x)

end Sys2Proof.Machine
end

