-- ==== Sys2Proof/Machine/Feed.lean ====
section
/-! DEFINITION. The Feed Share Unit (10_feed_sharing.md), with the Peer Table's circuit sum that it asks for (R33). -/

namespace Sys2Proof.Machine

/-! ### The circuit sum (R33) -/

/-- The feed part of a record that counts for a circuit: present and naming that circuit (R33). -/
def PeerRecord.claimsOn (circuit : Nat) (r : PeerRecord) : Option FeedPart :=
  r.feedPart.filter fun x => x.circuit == circuit

/-- The sum of the claims of all records whose feed part names a circuit (R33). -/
def circuitSum (peers : List PeerRecord) (circuit : Nat) : Nat :=
  ((peers.filterMap (PeerRecord.claimsOn circuit)).map fun x => x.claim).sum

/-- The two values the Peer Table answers when asked for a circuit sum: S, and the number of records in it (R33). -/
structure CircuitAnswer where
  sum : Nat
  count : Nat
deriving DecidableEq, Repr

/-- The Peer Table's answer for a circuit (R33). -/
def circuitAnswer (peers : List PeerRecord) (circuit : Nat) : CircuitAnswer :=
  { sum := circuitSum peers circuit, count := (peers.filterMap (PeerRecord.claimsOn circuit)).length }

/-! ### Demand and allowance (R164, R165) -/

/-- The emitter demand: the full-drive currents at the unpulled duties, rounded up (R164). -/
def State.emitterDemandNow (s : State) : Nat :=
  let part := fun e => s.settings.fullDrive.get e * (s.colour.emitters.get e).unpulled
  ceilDiv (part .red + part .green + part .blue + part .white) 65536

/-- The demand counts an axis at its run current: its run flag is set or its position lane is in FADE (R164). DESIGN CHOICE: the
lane's state is read from its record as it stands, so at the instant of a tick of that lane the order shows (log 42). -/
def State.countsRun (s : State) (x : Axis) : Bool :=
  (s.axes.get x).running || decide (s.play.pos.timing.state = .fade)

/-- The current of an axis in the demand (R164). -/
def State.axisDemand (s : State) (x : Axis) : Nat :=
  let st := s.settings.axes.get x
  if s.countsRun x then st.runCurrent else st.holdCurrent

/-- The demand (R164). -/
def State.demandNow (s : State) : Nat :=
  s.settings.standby + s.axisDemand .pan + s.axisDemand .tilt + s.emitterDemandNow

/-- The allowance: L on circuit 0, otherwise the greater of the floor share and what the peers' claims leave of L (R165). -/
def State.allowanceNow (s : State) : Nat :=
  if s.settings.circuit = 0 then s.settings.limit
  else max s.settings.floorShare (s.settings.limit - (circuitAnswer s.peers s.settings.circuit).sum)

/-! ### The split (R167) -/

/-- The pull factor of an emitter share (R167 step 2). -/
def pullFactor (share demand : Nat) : Nat :=
  if demand = 0 then 1000 else share * 1000 / demand

/-- What each axis of a round gets of a pool, by what each asks (R167 step 3). -/
def shareRound (pool : Nat) (ask : PerAxis Nat) : PerAxis Nat :=
  if ask.pan + ask.tilt ≤ pool then ask
  else { pan := pool * ask.pan / (ask.pan + ask.tilt), tilt := pool * ask.tilt / (ask.pan + ask.tilt) }

/-- What the next round has of a pool: nothing when it could not cover every ask of this one (R167 step 3). -/
def poolAfter (pool : Nat) (ask : PerAxis Nat) : Nat :=
  pool - (ask.pan + ask.tilt)

/-- What an axis asks of the run pool: its run current above hold (R167 step 3). -/
def AxisSettings.ask (st : AxisSettings) : Nat :=
  st.runCurrent - st.holdCurrent

/-- What each axis gets of the run pool: the running axes first, then the others (R167 step 3). -/
def sharePool (pool : Nat) (ask : PerAxis Nat) (isRunning : PerAxis Bool) : PerAxis Nat :=
  let first : PerAxis Nat :=
    { pan := if isRunning.pan then ask.pan else 0, tilt := if isRunning.tilt then ask.tilt else 0 }
  let second : PerAxis Nat :=
    { pan := if isRunning.pan then 0 else ask.pan, tilt := if isRunning.tilt then 0 else ask.tilt }
  let x := shareRound pool first
  let y := shareRound (poolAfter pool first) second
  { pan := x.pan + y.pan, tilt := x.tilt + y.tilt }

/-- The split of the usage: the pull factor and the two grants (R167). -/
def Feed.split (f : Feed) (st : Settings) : Feed :=
  let share := min f.emitterDemand (f.usage - st.base)
  let got := sharePool (f.usage - st.base - share) { pan := st.axes.pan.ask, tilt := st.axes.tilt.ask } f.counted
  { f with
    pull := pullFactor share f.emitterDemand,
    grant :=
      if f.driverHot || f.isTripped then { pan := st.axes.pan.holdCurrent, tilt := st.axes.tilt.holdCurrent }
      else { pan := st.axes.pan.holdCurrent + got.pan, tilt := st.axes.tilt.holdCurrent + got.tilt } }

/-- The split recomputed at an instant at which the usage changes (R166, R167). -/
def State.resplit (s : State) : State :=
  s.withFeed (s.feed.split s.settings)

/-! ### FEED-NOTEs (R168) -/

/-- The payload of a FEED-NOTE placed now (R168). -/
def State.feedNotePayload (s : State) : List Byte :=
  buildFeedNote
    { circuit := s.settings.circuit, claim := s.feed.claim, tripped := s.feed.isTripped,
      settling := s.feed.settling.isSome }

/-- A FEED-NOTE is placed; on circuit 0 none is (R168). `owed` says whether the note of the next note time is still to be
placed after it (log 37). -/
def State.sendFeedNote (s : State) (owed : Bool) : State :=
  if s.settings.circuit = 0 then s
  else
    let s1 := s.withFeed { s.feed with nextNote := some (s.uptime + s.settings.noteInterval), noteOwed := owed }
    (s1.place .feedNote toAll s.feedNotePayload).tallyFeed fun t => { t with notesPlaced := sat t.notesPlaced }

/-- The next note time has been reached and its FEED-NOTE has not been placed (R168, R174). -/
def State.feedNoteDue (s : State) : Bool :=
  s.reached s.feed.nextNote || s.feed.noteOwed

/-- A FEED-NOTE placed by an event of R169 to R173: one that the next note time is due at the same instant stays owed
beside it, "either way two placements are made" (R174). -/
def State.placeFeedNote (s : State) : State :=
  s.sendFeedNote s.feedNoteDue

/-! ### The boundary (R164, R169, R170) -/

/-- The feed state after the demand, driver hot and the allowance of a boundary (R164, R165). -/
def State.feedMeasured (s : State) : Feed :=
  { s.feed with
    demand := s.demandNow, emitterDemand := s.emitterDemandNow,
    counted := { pan := s.countsRun .pan, tilt := s.countsRun .tilt },
    driverHot := decide (s.settings.driverLimit < s.sense.driverTemp), allowance := s.allowanceNow }

/-- The lowering and the raise are open to a boundary: started, NORMAL, raise state NONE, circuit 1 to 15
(R169, R170, R173). -/
def State.mayMoveClaim (s : State) : Bool :=
  s.feed.started && !s.feed.isTripped && s.feed.settling.isNone && s.settings.circuit ≠ 0

/-- The below-since time after a boundary's tests (R169). -/
def Feed.belowNow (f : Feed) (up : Nat) : Option Nat :=
  if f.claim ≤ f.demand then none else some (f.belowSince.getD up)

/-- The demand has been below the claim for one note interval (R169). -/
def State.lowerDue (s : State) : Bool :=
  (s.feed.belowNow s.uptime).any fun t => s.passed t s.settings.noteInterval

/-- The lowering of a boundary (R169). -/
def State.lowerClaim (s : State) : State :=
  if s.lowerDue then
    (s.withFeed
      { s.feed with
        claim := s.feed.demand, usage := s.feed.demand, belowSince := none }).placeFeedNote.tallyFeed
      fun t => { t with lowers := sat t.lowers }
  else s.withFeed { s.feed with belowSince := s.feed.belowNow s.uptime }

/-- The step of a raise (R170). -/
def Feed.raiseStep (f : Feed) : Nat :=
  min (f.demand - f.claim) (max 1 (ceilDiv (f.allowance - f.claim) 2))

/-- The raise of a boundary, if the demand and the allowance are above the claim (R170). -/
def State.raiseClaim (s : State) : State :=
  let f := s.feed
  if f.claim < f.demand ∧ f.claim < f.allowance then
    (s.withFeed
      { f with
        claim := f.claim + f.raiseStep,
        settling := some { claim := f.claim, endTime := s.uptime + 2 * s.settings.noteInterval },
        belowSince := none }).placeFeedNote.tallyFeed
      fun t => { t with raises := sat t.raises }
  else s

/-- The Feed Share Unit takes a boundary whole (R164). -/
def State.feedBoundary (s : State) : State :=
  let s1 := (s.withMarks { s.marks with feed := s.marks.feed.tail }).withFeed s.feedMeasured
  let s2 :=
    if s1.feed.driverHot && !s.feed.driverHot then
      s1.tallyFeed fun t => { t with driverHotEntries := sat t.driverHotEntries }
    else s1
  let s3 := if s2.mayMoveClaim then s2.lowerClaim.raiseClaim else s2
  s3.resplit

/-! ### Settling (R171) -/

/-- A raise settles (R171). -/
def State.settle (s : State) : State :=
  let a := s.allowanceNow
  let settled := min s.feed.claim a
  let s1 := (s.withFeed
    { s.feed with allowance := a, usage := settled, claim := settled, settling := none }).resplit.placeFeedNote
  if a < s.feed.claim then s1.tallyFeed fun t => { t with raisesCut := sat t.raisesCut } else s1

/-- The settle end time has been reached (R171). -/
def State.settleDue (s : State) : Bool :=
  s.feed.settling.any fun x => decide (x.endTime ≤ s.uptime)

/-! ### The feed trip (R172) -/

/-- The claim of a station while its circuit gives it the base: unshared, it is held at L (R163, R172). -/
def State.baseClaim (s : State) : Nat :=
  if s.settings.circuit = 0 then s.feed.claim else s.settings.base

/-- The feed trips: its claim and usage fall to the base, and the emitters are forced dark (R172, R123; log 23). -/
def State.tripFeed (s : State) : State :=
  ((s.withFeed
      { s.feed with
        tripEnd := some (s.uptime + 1000), settling := none, belowSince := none, claim := s.baseClaim,
        usage := s.settings.base, emitterDemand := 0 }).resplit.placeFeedNote.tallyFeed
    fun t => { t with feedTrips := sat t.feedTrips }).douse

/-- An overcurrent report of the Sense Unit (R172, R173). -/
def State.overcurrentReport (s : State) : State :=
  if s.feed.started then
    if s.feed.isTripped then s.withFeed { s.feed with tripEnd := some (s.uptime + 1000) } else s.tripFeed
  else s

/-- The usage in NORMAL with the raise state NONE and the claim at the base (R166, R172). -/
def Settings.usageAfterTrip (st : Settings) : Nat :=
  if st.circuit = 0 then st.limit else st.base

/-- The trip ends (R172). -/
def State.endTrip (s : State) : State :=
  (s.withFeed
    { s.feed with
      tripEnd := none, belowSince := none, claim := s.baseClaim,
      usage := s.settings.usageAfterTrip }).resplit.placeFeedNote

/-! ### Start (R173) -/

/-- A configured station starts its Feed Share Unit (R173; on circuit 0 the claim is L, log 24). -/
def State.startFeed (s : State) : State :=
  if s.settings.circuit = 0 then
    (s.withFeed
      { s.feed with
        started := true, claim := s.settings.limit, usage := s.settings.limit, enabling := .due }).resplit
  else
    (s.withFeed
      { s.feed with
        started := true, claim := s.settings.base, usage := s.settings.base,
        enabling := .waiting }).resplit.placeFeedNote

/-- Bridge enable set on one axis: its bridges begin driving from the next PWM period (R130). -/
def State.enableAxis (s : State) (x : Axis) : State :=
  s.withAxis x ({ s.axes.get x with bridgeEnable := true }.rewrite (s.settings.axes.get x))

/-- A START or ASK request begins homing once bridge enable is set (R153). -/
def State.homeOnEnable (s : State) (x : Axis) : State :=
  match (s.axes.get x).request with
  | some .start => s.beginHoming x
  | some .ask => s.beginHoming x
  | some .slip => s
  | none => s

/-- Bridge enable is set on both axes, and the waiting requests begin homing (R153, R173). -/
def State.enableBridges (s : State) : State :=
  let s1 := s.withFeed { s.feed with enabling := .done }
  (((s1.enableAxis .pan).enableAxis .tilt).homeOnEnable .pan).homeOnEnable .tilt

/-! ### The commands -/

/-- FEED_BOUNDARY (R164): the Feed Share Unit takes a boundary that has occurred. -/
def execFeedBoundary (s : State) : Host.Outcome State Fault Refusal :=
  .next (if s.marks.feed.isEmpty then s else s.feedBoundary)

/-- SETTLE_END (R171). -/
def execSettleEnd (s : State) : Host.Outcome State Fault Refusal :=
  .next (if s.settleDue then s.settle else s)

/-- TRIP_END (R172). -/
def execTripEnd (s : State) : Host.Outcome State Fault Refusal :=
  .next (if s.reached s.feed.tripEnd then s.endTrip else s)

/-- NEXT_NOTE_TIME (R168, R174). -/
def execNextNoteTime (s : State) : Host.Outcome State Fault Refusal :=
  .next (if s.feedNoteDue then s.sendFeedNote false else s)

/-- BRIDGE_ENABLE (R173): the first FEED-NOTE's slot has been freed, or circuit 0 has started. -/
def execBridgeEnable (s : State) : Host.Outcome State Fault Refusal :=
  .next (if s.feed.enabling = .due then s.enableBridges else s)

end Sys2Proof.Machine
end

