-- ==== Sys2Proof/Machine/Homing.lean ====
section
/-! DEFINITION. The Sense Unit, the index check, and the edges and asks of homing
(09_sensing_index_check_and_homing.md). -/

namespace Sys2Proof.Machine

/-! ### The sense scan (R144 to R146) -/

/-- A raw temperature in whole degrees (R145). -/
def temperature (raw : BitVec 12) : Int :=
  (raw.toNat * 165 / 4096 : Nat) - 40

/-- A raw feed current in 10 mA units (R145). -/
def feedUnits (raw : BitVec 12) : Nat :=
  raw.toNat * 2

/-- The trip-scan count after a scan (R146). -/
def tripScansAfter (level current count : Nat) : Nat :=
  if level < current then min (count + 1) 2 else 0

/-- The Sense Unit's values after a scan (R144 to R146). -/
def State.scanned (s : State) (emitterRaw driverRaw feedRaw : BitVec 12) : Sense :=
  { emitterTemp := temperature emitterRaw, driverTemp := temperature driverRaw, feedCurrent := feedUnits feedRaw,
    tripScans := tripScansAfter s.settings.tripLevel (feedUnits feedRaw) s.sense.tripScans,
    nextScan := s.sense.nextScan + 5 }

/-- A scan, with the overcurrent report it may hand on (R144, R146). The levels scanned stay on the inputs (log 5). -/
def State.scan (s : State) (emitterRaw driverRaw feedRaw : BitVec 12) : State :=
  let s1 := (s.withPins { s.pins with emitterRaw := emitterRaw, driverRaw := driverRaw, feedRaw := feedRaw }).withSense
    (s.scanned emitterRaw driverRaw feedRaw)
  if s1.sense.tripScans = 2 then s1.overcurrentReport else s1

/-! ### The captured edge (R147, R148) -/

/-- The expected position of an edge in a direction of travel (R147). -/
def AxisSettings.expected (st : AxisSettings) (e : Edge) (isNegative : Bool) : Int :=
  match e, isNegative with
  | .rise, false => (st.risePos : Nat)
  | .rise, true => (st.fallPos : Nat)
  | .fall, false => (st.fallPos : Nat)
  | .fall, true => (st.risePos : Nat)

/-- The width of the band (R147). -/
def AxisSettings.width (st : AxisSettings) : Nat :=
  st.fallPos - st.risePos

/-- The capture of an edge, its outcome still to be given (R148). -/
def AxisState.captureOf (a : AxisState) (st : AxisSettings) (e : Edge) : Capture :=
  { edge := e, negative := decide (a.v16 < 0), microstep := a.output,
    deviation := a.output - st.expected e (decide (a.v16 < 0)), mode := a.mode, outcome := .ignored }

/-! ### The index check (R149 to R151) -/

/-- An axis after an edge, and the edge's outcome. -/
structure EdgeResult where
  axis : AxisState
  outcome : CaptureOutcome
deriving DecidableEq, Repr

/-- An edge judged on its deviation (R151). -/
def AxisState.judge (a : AxisState) (st : AxisSettings) (d : Int) : EdgeResult :=
  if d.natAbs ≤ st.slipTolerance then
    { axis := ({ a with pass := none }.shiftCount (-d)).rewrite st, outcome := .corrected }
  else { axis := { a with pass := none, slipPending := true }, outcome := .slip }

/-- The measured width of a pass lies within the vane tolerance of the band's (R150). -/
def AxisSettings.widthHolds (st : AxisSettings) (measured : Nat) : Bool :=
  ((measured : Int) - (st.width : Nat)).natAbs ≤ st.vaneTolerance

/-- The index check takes a captured edge (R149, R150). -/
def AxisState.check (a : AxisState) (st : AxisSettings) (c : Capture) : EdgeResult :=
  match c.edge, a.pass with
  | .rise, _ =>
    { axis := { a with pass := some { negative := c.negative, microstep := c.microstep, deviation := c.deviation } },
      outcome := .held }
  | .fall, some p =>
    if p.negative = c.negative then
      if st.widthHolds (c.microstep - p.microstep).natAbs then a.judge st c.deviation
      else { axis := { a with pass := none }, outcome := .vaneFault }
    else a.judge st c.deviation
  | .fall, none => a.judge st c.deviation

/-! ### The homing phases' edges (R155) -/

/-- A homing phase entered, with its entry position (R155). -/
def AxisState.enterPhase (a : AxisState) (p : Phase) : AxisState :=
  { a with mode := .homing p, phaseEntry := a.position }

/-- SEEK, BACKOFF and APPROACH take a captured edge (R155). BACKOFF entered on a fall finds the input CLEAR and ends at
once. -/
def AxisState.phaseEdge (a : AxisState) (p : Phase) (c : Capture) : AxisState :=
  match p, c.edge with
  | .seek, .rise => a.enterPhase .backoff
  | .seek, .fall => (a.enterPhase .backoff).enterPhase .approach
  | .backoff, .fall => a.enterPhase .approach
  | .backoff, .rise => a
  | .approach, .rise =>
    if c.negative = false ∧ a.reference = none then { a with reference := some c.microstep } else a
  | .approach, .fall => a
  | .set, _ => a
  | .returning, _ => a

/-- A captured edge handled by the mode of the axis (R148). -/
def AxisState.edge (a : AxisState) (st : AxisSettings) (c : Capture) : EdgeResult :=
  let checked := if a.slipPending then { axis := a, outcome := .ignored } else a.check st c
  let ignored : EdgeResult := { axis := a, outcome := .ignored }
  match a.mode with
  | .ready => checked
  | .homing .returning => checked
  | .homing .seek => { axis := a.phaseEdge .seek c, outcome := .phase }
  | .homing .backoff => { axis := a.phaseEdge .backoff c, outcome := .phase }
  | .homing .approach => { axis := a.phaseEdge .approach c, outcome := .phase }
  | .homing .set => ignored
  | .unsure => ignored
  | .failed => ignored
  | .tripped => ignored

/-- Counts a captured edge of a deviation (R150, R151). -/
def AxisStats.countEdge (t : AxisStats) (d : Int) (o : CaptureOutcome) : AxisStats :=
  match o with
  | .corrected => if d = 0 then t else { t with corrections := sat t.corrections }
  | .slip => { t with slips := sat t.slips }
  | .vaneFault => { t with vaneFaults := sat t.vaneFaults }
  | .held => t
  | .phase => t
  | .ignored => t

/-- The index input of an axis changes: an edge with v16 not 0 is captured and handled (R148; log 30). -/
def State.indexEdge (s : State) (x : Axis) (e : Edge) : State :=
  let a := s.axes.get x
  let st := s.settings.axes.get x
  let s1 := s.withPins { s.pins with index := s.pins.index.set x (decide (e = .rise)) }
  if a.v16 = 0 then s1
  else
    let c := a.captureOf st e
    let r := a.edge st c
    (s1.withAxis x { r.axis with capture := some { c with outcome := r.outcome } }).tallyAxis x
      fun t => t.countEdge c.deviation r.outcome

/-! ### HOME-ASK (R157) -/

/-- A HOME-ASK for one axis, by its mode (R157). -/
def State.askAxis (s : State) (x : Axis) : State :=
  let a := s.axes.get x
  if a.mode.isHoming then s.tallyAxis x fun t => { t with homeAsksIgnored := sat t.homeAsksIgnored }
  else if a.bridgeEnable then s.beginHoming x
  else if a.mode = .unsure then s.withAxis x { a with request := some .ask }
  else s

/-- The axis drivers take a HOME-ASK whole, each named axis by itself (R157). -/
def State.takeHomeAsk (s : State) (payload : List Byte) : State :=
  let s1 := if homeAskNames payload .pan then s.askAxis .pan else s
  if homeAskNames payload .tilt then s1.askAxis .tilt else s1

/-! ### The commands -/

/-- An accepted HOME-ASK (R10, R157). -/
def State.receiveHomeAsk (s : State) (f : Frame) : State :=
  s.handOn .homeAsk f fun s => s.takeHomeAsk f.payload

/-- HOME_ASK (R157). -/
def execHomeAsk (f : Frame) (s : State) : Host.Outcome State Fault Refusal :=
  .next (s.receiveHomeAsk f)

/-- SENSE_SCAN (R144): at each uptime that is a whole multiple of 5 ms, from 5 ms on. -/
def execSenseScan (emitterRaw driverRaw feedRaw : BitVec 12) (s : State) : Host.Outcome State Fault Refusal :=
  .next (if s.sense.nextScan ≤ s.uptime then s.scan emitterRaw driverRaw feedRaw else s)

/-- INDEX_EDGE (R148). -/
def execIndexEdge (x : Axis) (e : Edge) (s : State) : Host.Outcome State Fault Refusal :=
  .next (s.indexEdge x e)

end Sys2Proof.Machine
end

