-- ==== Sys2Proof/Machine/Peers.lean ====
section
/-! DEFINITION. The Peer Table (02_peer_table.md): taking frames, entering stations, age-out, part lapses and the peer
summary. The circuit sum stands in Feed.lean and the match minima in Colour.lean, beside their callers. -/

namespace Sys2Proof.Machine

/-! ### Records -/

/-- A record as it is created (R25). -/
def PeerRecord.new (station up : Nat) : PeerRecord :=
  { station := station, kind := .fixture, groups := 0, heard := noPort, leastHops := 255, lastHeard := up,
    beaconPart := none, feedPart := none, matchPart := none }

/-- A record after a frame of its origin, before the rule of the frame's kind (R26). -/
def PeerRecord.hear (r : PeerRecord) (f : Frame) (up : Nat) : PeerRecord :=
  { r with
    lastHeard := up, heard := r.heard.set f.port true, leastHops := min r.leastHops f.hops.toNat, groups := f.groups }

/-- A record put in ascending order of station number, in place of the one it replaces. -/
def putPeer (r : PeerRecord) : List PeerRecord → List PeerRecord
  | [] => [r]
  | q :: rest =>
    if r.station < q.station then r :: q :: rest
    else if r.station = q.station then r :: rest
    else q :: putPeer r rest

/-- The record of a station. -/
def peerOf (peers : List PeerRecord) (station : Nat) : Option PeerRecord :=
  peers.find? fun r => r.station == station

/-- The records but that of a station. -/
def dropPeer (peers : List PeerRecord) (station : Nat) : List PeerRecord :=
  peers.filter fun r => r.station != station

/-- One record is given up before another: earlier last-heard time, then greater least hops, then higher station number
(R30). -/
def PeerRecord.goesBefore (x y : PeerRecord) : Bool :=
  if x.lastHeard ≠ y.lastHeard then x.lastHeard < y.lastHeard
  else if x.leastHops ≠ y.leastHops then y.leastHops < x.leastHops
  else y.station < x.station

/-- The candidate of a table (R30). -/
def candidate : List PeerRecord → Option PeerRecord
  | [] => none
  | r :: rest =>
    match candidate rest with
    | none => some r
    | some q => if q.goesBefore r then some q else some r

/-- A record's age is more than twice its age unit (R30). -/
def State.isStale (s : State) (r : PeerRecord) : Bool :=
  2 * r.ageUnit s.settings.beaconInterval < s.uptime - r.lastHeard

/-! ### Taking a frame (R26, R29, R30) -/

/-- The Peer Table takes a frame whole; `apply` is the rule of its kind (R26, R29, R30). -/
def State.takePeer (s : State) (f : Frame) (apply : PeerRecord → PeerRecord) : State :=
  let station := f.origin.toNat
  let entered := apply ((PeerRecord.new station s.uptime).hear f s.uptime)
  match peerOf s.peers station with
  | some r => s.withPeers (putPeer (apply (r.hear f s.uptime)) s.peers)
  | none =>
    if s.peers.length < 24 then s.withPeers (putPeer entered s.peers)
    else
      match candidate s.peers with
      | some c =>
        if s.isStale c then
          (s.withPeers (putPeer entered (dropPeer s.peers c.station))).tallyPeers
            fun t => { t with replaced := sat t.replaced }
        else s.tallyPeers fun t => { t with tableFull := sat t.tableFull }
      | none => s

/-- The kind a BEACON gives a record (R27). -/
def kindAfter (code : Nat) (k : PeerKind) : PeerKind :=
  if code = 1 then .fixture else if code = 2 then .cueSource else k

/-- A BEACON applied to its origin's record (R27). -/
def applyBeacon (b : BeaconFields) (r : PeerRecord) : PeerRecord :=
  { r with
    kind := kindAfter b.stationKind r.kind,
    beaconPart := some { mode := clockModeOfCode b.clockState, epoch := b.epoch,
                         interval := 10 * clampNat 5 25 b.interval } }

/-- A FEED-NOTE applied to its origin's record (R28). -/
def applyFeedNote (n : FeedNoteFields) (up : Nat) (r : PeerRecord) : PeerRecord :=
  { r with
    feedPart :=
      if 1 ≤ n.circuit ∧ n.circuit ≤ 15 then
        some { circuit := n.circuit, claim := n.claim, tripped := n.tripped, refreshed := up }
      else none }

/-- A MATCH-NOTE applied to its origin's record (R28). -/
def applyMatchNote (n : Announcement) (up : Nat) (r : PeerRecord) : PeerRecord :=
  { r with
    matchPart :=
      if 1 ≤ n.group ∧ n.group ≤ 15 then
        some { group := n.group, ceilings := n.ceilings, outOfMatch := n.outOfMatch, pulled := n.pulled,
               refreshed := up }
      else none }

/-! ### Age-out and lapse (R31, R32) -/

/-- The record of a station ages out (R31). -/
def State.ageOut (s : State) (r : PeerRecord) : State :=
  (s.withPeers (dropPeer s.peers r.station)).tallyPeers fun t => { t with agedOut := sat t.agedOut }

/-- A record's feed part lapses (R32). -/
def State.lapseFeed (s : State) (r : PeerRecord) : State :=
  s.withPeers (putPeer { r with feedPart := none } s.peers)

/-- A record's match part lapses (R32). -/
def State.lapseMatch (s : State) (r : PeerRecord) : State :=
  s.withPeers (putPeer { r with matchPart := none } s.peers)

/-! ### The peer summary (R35) -/

/-- A synced peer of an epoch (R35). -/
def PeerRecord.syncedIn (epoch : Nat) (r : PeerRecord) : Bool :=
  r.beaconPart.any fun b => (b.mode == .locked || b.mode == .holdover) && b.epoch == epoch

/-- The greatest least hops among records, or 0 with none (R35). -/
def farthestPeer (peers : List PeerRecord) : Nat :=
  peers.foldl (fun m r => max m r.leastHops) 0

/-- A record's feed part is on the own circuit, which is not 0 (R35). -/
def PeerRecord.onCircuit (circuit : Nat) (r : PeerRecord) : Bool :=
  circuit ≠ 0 && r.feedPart.any fun x => x.circuit == circuit

/-- A record's match part is in the own match group, which is not 0 (R35). -/
def PeerRecord.inMatch (group : Nat) (r : PeerRecord) : Bool :=
  group ≠ 0 && r.matchPart.any fun x => x.group == group

/-- The ten items of the peer summary, in the order of R35. -/
def State.peerSummary (s : State) : List Nat :=
  let count := fun (p : PeerRecord → Bool) => s.peers.countP p
  let circuit := s.settings.circuit
  let group := s.settings.matchGroup
  [s.peers.length,
   count fun r => r.kind == .cueSource,
   count fun r => r.heard.a && r.heard.b,
   count fun r => groupsMeet r.groups s.settings.groups,
   count fun r => r.syncedIn s.clock.epoch,
   farthestPeer s.peers,
   count fun r => r.onCircuit circuit,
   count fun r => r.onCircuit circuit && r.feedPart.any fun x => x.tripped,
   count fun r => r.inMatch group,
   count fun r => r.inMatch group && r.matchPart.any fun x => x.pulled]

/-! ### The commands -/

/-- An accepted FEED-NOTE (R10, R28). -/
def State.receiveFeedNote (s : State) (f : Frame) : State :=
  s.handOn .feedNote f fun s => s.takePeer f (applyFeedNote (readFeedNote f.payload) s.uptime)

/-- An accepted MATCH-NOTE (R10, R28). -/
def State.receiveMatchNote (s : State) (f : Frame) : State :=
  s.handOn .matchNote f fun s => s.takePeer f (applyMatchNote (readMatchNote f.payload) s.uptime)

/-- FEED_NOTE (R28). -/
def execFeedNote (f : Frame) (s : State) : Host.Outcome State Fault Refusal :=
  .next (s.receiveFeedNote f)

/-- MATCH_NOTE (R28). -/
def execMatchNote (f : Frame) (s : State) : Host.Outcome State Fault Refusal :=
  .next (s.receiveMatchNote f)

/-- PEER_AGE_OUT (R31): the age of the record of a station has reached four of its age units. -/
def execPeerAgeOut (station : Byte) (s : State) : Host.Outcome State Fault Refusal :=
  match peerOf s.peers station.toNat with
  | some r => .next (if s.ageOutDue r then s.ageOut r else s)
  | none => .next s

/-- FEED_PART_LAPSE (R32). -/
def execFeedPartLapse (station : Byte) (s : State) : Host.Outcome State Fault Refusal :=
  match peerOf s.peers station.toNat with
  | some r => .next (if s.feedLapseDue r then s.lapseFeed r else s)
  | none => .next s

/-- MATCH_PART_LAPSE (R32). -/
def execMatchPartLapse (station : Byte) (s : State) : Host.Outcome State Fault Refusal :=
  match peerOf s.peers station.toNat with
  | some r => .next (if s.matchLapseDue r then s.lapseMatch r else s)
  | none => .next s

end Sys2Proof.Machine
end

