-- ==== Sys2Proof/Machine/Clock.lean ====
section
/-! DEFINITION. The Show Clock (03_show_clock.md): beacons taken, steps, adoption, catch-up, silence and own beacons. -/

namespace Sys2Proof.Machine

/-- `s` with its Show Clock's state changed. -/
def State.mapClock (s : State) (f : Clock → Clock) : State :=
  s.withClock (f s.clock)

/-! ### Estimate and offset (R40) -/

/-- The estimate of a beacon, in µs of its epoch (R40). -/
def BeaconFields.estimate (b : BeaconFields) : Nat :=
  b.ms * 1000 + b.us + b.correction + 77

/-- The elapsed time of a beacon whose reception ended at `ended`: the microseconds the local timebase has counted since, so
that show time less it is the show time held then (R37, R40; log 9). -/
def State.elapsed (s : State) (ended : Nat) : Nat :=
  s.micros - ended / 3

/-- The offset of a beacon of the own epoch, in µs (R40). -/
def State.offset (s : State) (b : BeaconFields) (ended : Nat) : Int :=
  (b.estimate : Nat) - ((s.clock.showMicros : Nat) - (s.elapsed ended : Nat) : Int)

/-- The classes of an offset (R40). -/
inductive OffsetClass where
  | ahead
  | closeAhead
  | close
  | behind
deriving DecidableEq, Repr

/-- The class of an offset (R40). -/
def offsetClass (o : Int) : OffsetClass :=
  if 2000 < o then .ahead else if 1 ≤ o then .closeAhead else if -2000 ≤ o then .close else .behind

/-! ### Steps and adoption (R41, R45) -/

/-- A step of show time by an offset above 0 (R45). -/
def State.stepClock (s : State) (o : Int) : State :=
  (s.mapClock fun c => { c.setShowMicros (c.showMicros + o.toNat) with catchUp := 0 }).tallyClock
    fun t => { t with steps := sat t.steps }

/-- The state that counting its first agreeing beacon leaves: SEEK, or LOCKED at once if N is 1 (R41, R42, R44). -/
def firstCountMode (lockCount : Nat) : ClockMode :=
  if lockCount = 1 then .locked else .seek

/-- The clock counts its first beacon anew (R42, R44). -/
def State.seekAnew (s : State) : State :=
  s.mapClock fun c => { c with mode := firstCountMode s.settings.lockCount, consecutive := 1 }

/-- A taken beacon of a higher epoch is adopted, and the Playback Unit rebased by Δ (R41). -/
def State.adopt (s : State) (b : BeaconFields) (ended : Nat) : State :=
  let before : Int := (s.clock.showMicros : Nat)
  let s1 := (s.mapClock fun c =>
      { c.setShowMicros (b.estimate + s.elapsed ended) with
        epoch := b.epoch, mode := firstCountMode s.settings.lockCount, consecutive := 1, disagreement := 0, catchUp := 0,
        holdoverEntry := none }).tallyClock
    fun t => { t with adoptions := sat t.adoptions }
  s1.rebase (roundDiv ((s1.clock.showMicros : Nat) - before) 1000)

/-! ### Beacons of the own epoch (R42 to R44) -/

/-- FREE (R42). -/
def State.beaconInFree (s : State) (o : Int) : State :=
  (if 0 < o then s.stepClock o else s).seekAnew

/-- SEEK goes to LOCKED when the consecutive count reaches N (R43). -/
def State.lockIfCounted (s : State) : State :=
  if s.settings.lockCount ≤ s.clock.consecutive then
    s.mapClock fun c =>
      { c with mode := .locked, consecutive := s.settings.lockCount, disagreement := 0, catchUp := 0 }
  else s

/-- SEEK (R43). -/
def State.beaconInSeek (s : State) (o : Int) : State :=
  match offsetClass o with
  | .ahead => ((s.stepClock o).mapClock fun c => { c with consecutive := 1 }).lockIfCounted
  | .closeAhead => (s.mapClock fun c => { c with consecutive := c.consecutive + 1 }).lockIfCounted
  | .close => (s.mapClock fun c => { c with consecutive := c.consecutive + 1 }).lockIfCounted
  | .behind => s

/-- The clock re-seeks when the disagreement count reaches N (R44). -/
def State.reseekIfCounted (s : State) (o : Int) : State :=
  if s.settings.lockCount ≤ s.clock.disagreement then
    (s.stepClock o).seekAnew.mapClock fun c => { c with disagreement := 0 }
  else s

/-- LOCKED and HOLDOVER, which first returns to LOCKED (R44). -/
def State.beaconInLock (s : State) (o : Int) : State :=
  let s1 := s.mapClock fun c => { c with mode := .locked, holdoverEntry := none }
  match offsetClass o with
  | .ahead => (s1.mapClock fun c => { c with disagreement := c.disagreement + 1 }).reseekIfCounted o
  | .closeAhead => s1.mapClock fun c => { c with catchUp := max c.catchUp o.toNat, disagreement := 0 }
  | .close => s1
  | .behind => s1

/-- A taken beacon of the own epoch (R39). -/
def State.beaconOfEpoch (s : State) (o : Int) : State :=
  match s.clock.mode with
  | .free => s.beaconInFree o
  | .seek => s.beaconInSeek o
  | .locked => s.beaconInLock o
  | .holdover => s.beaconInLock o

/-- A BEACON is unusable: a show µs field above 999 or a saturated correction (R39). -/
def BeaconFields.isUnusable (b : BeaconFields) : Bool :=
  decide (999 < b.us) || b.correction == 16777215

/-- The Show Clock takes a BEACON whole (R39). -/
def State.clockTakes (s : State) (b : BeaconFields) (ended : Nat) : State :=
  if b.isUnusable then s.tallyClock fun t => { t with unusable := sat t.unusable }
  else if b.epoch < s.clock.epoch then s.tallyClock fun t => { t with olderEpoch := sat t.olderEpoch }
  else
    let s1 := (s.mapClock fun c => { c with lastBeacon := some s.uptime }).tallyClock
      fun t => { t with taken := sat t.taken }
    if s.clock.epoch < b.epoch then s1.adopt b ended else s1.beaconOfEpoch (s1.offset b ended)

/-! ### Catch-up and silence (R46, R47) -/

/-- One slew: an extra microsecond of running (R46). -/
def State.slew (s : State) : State :=
  s.runMicro.mapClock fun c => { c with catchUp := c.catchUp - 1, slewedAt := s.uptime }

/-- LOCKED to HOLDOVER (R47). -/
def State.enterHoldover (s : State) : State :=
  (s.mapClock fun c => { c with mode := .holdover, holdoverEntry := some s.uptime, catchUp := 0 }).tallyClock
    fun t => { t with holdovers := sat t.holdovers }

/-- HOLDOVER to FREE (R47). -/
def State.loseHoldover (s : State) : State :=
  (s.mapClock fun c =>
      { c with mode := .free, holdoverEntry := none, consecutive := 0, disagreement := 0, catchUp := 0 }).tallyClock
    fun t => { t with losses := sat t.losses }

/-- SEEK to FREE (R47). -/
def State.loseSeek (s : State) : State :=
  (s.mapClock fun c => { c with mode := .free, consecutive := 0, catchUp := 0 }).tallyClock
    fun t => { t with losses := sat t.losses }

/-! ### Own beacons (R49) -/

/-- The Show Clock places a BEACON (R49). -/
def State.placeBeacon (s : State) : State :=
  s.place .beacon toAll s.placedBeacon

/-- The next beacon time, moved on by the beacon interval as its BEACON is placed (R49). -/
def State.beaconTick (s : State) : State :=
  s.placeBeacon.mapClock fun c => { c with nextBeacon := c.nextBeacon.map (· + s.settings.beaconInterval) }

/-! ### The commands -/

/-- An accepted BEACON, taken by the Show Clock and by the Peer Table (R10, R27, R39). -/
def State.receiveBeacon (s : State) (f : Frame) : State :=
  s.handOn .beacon f fun s =>
    (s.clockTakes (readBeacon f.payload) f.ended).takePeer f (applyBeacon (readBeacon f.payload))

/-- BEACON (R39). -/
def execBeacon (f : Frame) (s : State) : Host.Outcome State Fault Refusal :=
  .next (s.receiveBeacon f)

/-- CATCH_UP_SLEW (R46): a catch-up raised at the very instant of a whole millisecond slews in that millisecond (log 15). -/
def execCatchUpSlew (s : State) : Host.Outcome State Fault Refusal :=
  .next (if s.slewDue then s.slew else s)

/-- HOLDOVER_ENTRY (R47). -/
def execHoldoverEntry (s : State) : Host.Outcome State Fault Refusal :=
  .next (if s.holdoverDue then s.enterHoldover else s)

/-- HOLDOVER_TO_FREE (R47). -/
def execHoldoverToFree (s : State) : Host.Outcome State Fault Refusal :=
  .next (if s.holdoverLossDue then s.loseHoldover else s)

/-- SEEK_TO_FREE (R47). -/
def execSeekToFree (s : State) : Host.Outcome State Fault Refusal :=
  .next (if s.seekLossDue then s.loseSeek else s)

/-- BEACON_TIMER (R49). -/
def execBeaconTimer (s : State) : Host.Outcome State Fault Refusal :=
  .next (if s.reached s.clock.nextBeacon then s.beaconTick else s)

end Sys2Proof.Machine
end

