-- ==== Sys2Proof/Machine/Status.lean ====
section
/-! DEFINITION. The Setup Store (11_setup_status_and_start_up.md): setup pages, statistics counting, status pages, the
device resets and the start-up step of the read. -/

namespace Sys2Proof.Machine

/-! ### Fields of a status page (R182) -/

/-- An unsigned field of a status page; what a value that does not fit it leaves is free (R182, log 28). -/
def statusField (size v : Nat) : List Byte :=
  beBytes size (if v < 256 ^ size then v else Config.overlongField size (v : Nat))

/-- A signed field of a status page, in two's complement; a show ms count or a tick of four bytes is carried modulo 2³²
(R182, log 28). -/
def statusSigned (size : Nat) (v : Int) : List Byte :=
  if -(256 ^ size / 2 : Nat) ≤ v ∧ v < (256 ^ size : Nat) then beSigned size v
  else beBytes size (Config.overlongField size v)

/-- Counters, two bytes each (R182). -/
def counterFields (cs : List Nat) : List Byte :=
  (cs.map (statusField 2)).flatten

/-- The kinds of refusal (R182). -/
def RefusalKind.code : RefusalKind → Nat
  | .badNumber => 0
  | .empty => 1
  | .isProtected => 2
  | .full => 3
  | .lineDown => 4
  | .noCue => 5

/-- The refusal byte: bit 7 present, bits 0 to 2 the kind (R182). -/
def refusalCode : Option RefusalRecord → Nat
  | some r => 128 + r.kind.code
  | none => 0

/-- The nibble of a lane state (R182). -/
def LaneState.code : LaneState → Nat
  | .hold => 0
  | .wait .delay => 1
  | .wait .gather => 2
  | .wait .dark => 3
  | .fade => 4

/-- The nibbles of the lane states from PAN to WHITE, the last 0, the first of each pair high (R182, log 28). -/
def Playback.laneCodes (p : Playback) : List Byte :=
  let pos := p.pos.timing.state.code
  let int := p.intensity.timing.state.code
  let col := p.colour.timing.state.code
  statusField 1 (16 * pos + pos) ++ statusField 1 (16 * int + col) ++ statusField 1 (16 * col + col)
    ++ statusField 1 (16 * col)

/-- The nibble of a homing phase (R182). -/
def Phase.code : Phase → Nat
  | .seek => 1
  | .backoff => 2
  | .approach => 3
  | .set => 4
  | .returning => 5

/-- The mode byte (R182). -/
def AxisMode.code : AxisMode → Nat
  | .unsure => 0
  | .homing p => 16 + p.code
  | .ready => 32
  | .failed => 48
  | .tripped => 64

/-- The code of a request's cause (R182). -/
def HomeCause.code : HomeCause → Nat
  | .start => 0
  | .ask => 1
  | .slip => 2

/-- The code of a capture's outcome (R182). -/
def CaptureOutcome.code : CaptureOutcome → Nat
  | .corrected => 0
  | .slip => 1
  | .vaneFault => 2
  | .held => 3
  | .phase => 4
  | .ignored => 5

/-- The axis flags (R182). -/
def AxisState.flags (a : AxisState) : Nat :=
  let cause := (a.request.map HomeCause.code).getD 0
  (flagByte [a.tripFlag, a.slipPending, a.request.isSome, cause.testBit 0, cause.testBit 1, a.capture.isSome]).toNat

/-- The capture byte (R182). -/
def Capture.code (c : Capture) : Nat :=
  let o := c.outcome.code
  (flagByte [c.edge == .fall, c.negative, o.testBit 0, o.testBit 1, o.testBit 2]).toNat

/-- The capture's fields, 0 when there is none (R182). -/
def captureFields : Option Capture → List Byte
  | some c =>
    statusField 1 c.code ++ statusField 1 c.mode.code ++ statusSigned 3 c.microstep
      ++ statusSigned 2 (clampInt (-32768) 32767 c.deviation)
  | none => statusField 1 0 ++ statusField 1 0 ++ statusSigned 3 0 ++ statusSigned 2 0

/-- The fields of one axis on page 0 part 2 (R182). -/
def AxisState.fields (a : AxisState) : List Byte :=
  statusField 1 a.mode.code ++ statusSigned 3 a.position ++ statusField 2 (a.lag.getD 65535) ++ statusField 1 a.flags
    ++ captureFields a.capture

/-! ### The parts of the pages (R182) -/

/-- Page 0 part 0: clock, cues and playback. -/
def State.clockAndCues (s : State) : List Byte :=
  let c := s.clock
  let p := s.play
  let refusal := s.cues.refusal
  statusField 1 c.mode.code ++ statusField 2 c.epoch ++ statusSigned 4 (c.ms : Nat) ++ statusField 2 c.us
    ++ statusField 2 c.catchUp
    ++ statusField 1 s.cues.cues.length ++ statusField 2 s.cues.line ++ statusField 1 (refusalCode refusal)
    ++ statusField 2 ((refusal.map fun r => r.cue).getD 0) ++ statusField 1 ((refusal.map fun r => r.origin).getD 0)
    ++ statusField 2 ((p.lastGo.map fun g => g.resolved).getD 0)
    ++ [flagByte [p.pendingGo.isSome, p.follow.isSome, p.gather.isSome]]
    ++ statusField 2 ((p.pendingGo.map fun g => g.cueField).getD 0)
    ++ statusSigned 4 ((p.pendingGo.map fun g => g.tick).getD 0)
    ++ statusField 2 ((p.follow.map fun f => f.source).getD 0)
    ++ statusSigned 4 ((p.follow.map fun f => f.tick).getD 0)
    ++ p.laneCodes

/-- The gather's fields, 0 when none is open (R109, R182). -/
def gatherFields : Option Gather → List Byte
  | some g =>
    statusField 1 g.group ++ statusField 2 g.cue ++ statusSigned 4 g.closeTick ++ statusSigned 4 g.ownEnd
      ++ statusSigned 4 g.groupEnd ++ statusField 1 g.notes
  | none =>
    statusField 1 0 ++ statusField 2 0 ++ statusSigned 4 0 ++ statusSigned 4 0 ++ statusSigned 4 0 ++ statusField 1 0

/-- Page 0 part 1: gather, colour, sensing and the peer summary. -/
def State.gatherAndPeers (s : State) : List Byte :=
  gatherFields s.play.gather
    ++ statusField 2 s.colour.derate ++ [flagByte [s.colour.outOfMatch, s.colour.announced]]
    ++ statusField 2 s.colour.pAnn
    ++ statusSigned 1 s.sense.emitterTemp ++ statusSigned 1 s.sense.driverTemp ++ statusField 2 s.sense.feedCurrent
    ++ statusField 1 s.sense.tripScans
    ++ (s.peerSummary.map (statusField 1)).flatten

/-- Page 0 part 2: the axes and the feed. -/
def State.axesAndFeed (s : State) : List Byte :=
  let f := s.feed
  s.axes.pan.fields ++ s.axes.tilt.fields
    ++ statusField 1 s.settings.circuit ++ statusField 2 f.demand ++ statusField 2 f.claim ++ statusField 2 f.usage
    ++ statusField 2 f.allowance ++ [flagByte [f.settling.isSome, f.isTripped, f.driverHot]] ++ statusField 2 f.pull
    ++ statusField 2 f.grant.pan ++ statusField 2 f.grant.tilt

/-- The nine counters of a port, in the order of R22. -/
def PortStats.fields (t : PortStats) : List Byte :=
  counterFields
    [t.framesIn, t.checkFailures, t.ownEchoes, t.badSize, t.hopLimited, t.relayFull, t.relayFlushed, t.framesRelayed,
     t.ownFramesOut]

/-- Page 1 part 0: the link. -/
def State.linkCounters (s : State) : List Byte :=
  [flagByte [s.ports.a.up, s.ports.b.up]] ++ statusField 2 s.longestWait ++ s.stats.ports.a.fields
    ++ s.stats.ports.b.fields

/-- Page 1 part 1: counting, the clock, the peer table and setup, in the orders of R52, R35 and R178. -/
def State.clockCounters (s : State) : List Byte :=
  let c := s.stats.clock
  let p := s.stats.peers
  [flagByte [s.setup.counting]]
    ++ counterFields [c.taken, c.unusable, c.olderEpoch, c.adoptions, c.steps, c.holdovers, c.losses]
    ++ counterFields [p.tableFull, p.replaced, p.agedOut] ++ counterFields [s.stats.setup.written, s.stats.setup.ignored]

/-- Page 2 part 0: cues, playback and colour, in the orders of R66, R92 and R127. -/
def State.showCounters (s : State) : List Byte :=
  let q := s.stats.cues
  let p := s.stats.play
  let c := s.stats.colour
  counterFields [q.inserted, q.replaced, q.clamped, q.removed, q.refusals]
    ++ counterFields
      [p.gosTaken, p.lateGos, p.unsynced, p.duplicates, p.pendingReplaced, p.followsTaken, p.releasesTaken, p.rebases,
       p.gathersCancelledByRebase]
    ++ counterFields [c.pullAnnouncements, c.outOfMatchEntries, c.ceilingCuts, c.matchNotesPlaced]

/-- Page 2 part 1: planning and feed, in the orders of R109 and R175. -/
def State.planCounters (s : State) : List Byte :=
  let p := s.stats.plan
  let f := s.stats.feed
  counterFields
      [p.stretched, p.gathersOpened, p.gathersClosed, p.gathersLengthened, p.gathersCapped, p.gathersCancelled,
       p.notesMatched, p.earlyNotes, p.earlyNotesLost, p.lateNotes]
    ++ counterFields [f.raises, f.raisesCut, f.lowers, f.feedTrips, f.notesPlaced, f.driverHotEntries]

/-- The counters of an axis: bridge trips, then the seven of R161. -/
def AxisStats.fields (t : AxisStats) : List Byte :=
  counterFields
    [t.bridgeTrips, t.corrections, t.slips, t.vaneFaults, t.homesBegun, t.homesCompleted, t.homingFailures,
     t.homeAsksIgnored]

/-- Page 2 part 2: the axes. -/
def State.axisCounters (s : State) : List Byte :=
  s.stats.axes.pan.fields ++ s.stats.axes.tilt.fields

/-- The status pages (R181). -/
inductive StatusPage where
  | page0
  | page1
  | page2
deriving DecidableEq, Repr

/-- The page an ask names: 0 to 2 (R181). -/
def statusPageOf (n : Nat) : Option StatusPage :=
  if n = 0 then some .page0 else if n = 1 then some .page1 else if n = 2 then some .page2 else none

/-- The number of a page. -/
def StatusPage.number : StatusPage → Nat
  | .page0 => 0
  | .page1 => 1
  | .page2 => 2

/-- How many parts a page has (R181). -/
def StatusPage.parts : StatusPage → Nat
  | .page0 => 3
  | .page1 => 2
  | .page2 => 3

/-- The next part of a page (R181). -/
def State.nextPart (s : State) : StatusPage → Nat
  | .page0 => s.setup.nextPart0
  | .page1 => s.setup.nextPart1
  | .page2 => s.setup.nextPart2

/-- The content of a part after its part byte (R182). -/
def State.partContent (s : State) (p : StatusPage) (part : Nat) : List Byte :=
  match p, part with
  | .page0, 0 => s.clockAndCues
  | .page0, 1 => s.gatherAndPeers
  | .page0, _ => s.axesAndFeed
  | .page1, 0 => s.linkCounters
  | .page1, _ => s.clockCounters
  | .page2, 0 => s.showCounters
  | .page2, 1 => s.planCounters
  | .page2, _ => s.axisCounters

/-- The payload of the STATUS-REPLY to an ask of a page (R181 step 1). -/
def State.replyPayload (s : State) (p : StatusPage) : List Byte :=
  statusField 1 p.number ++ statusField 1 (s.nextPart p) ++ s.partContent p (s.nextPart p)

/-! ### STATUS-ASK (R180, R181) -/

/-- `s` with its Setup Store's own state changed. -/
def State.mapSetup (s : State) (f : Setup → Setup) : State :=
  s.withSetup (f s.setup)

/-- The part after a part of a page (R181 step 3). -/
def StatusPage.after (p : StatusPage) (part : Nat) : Nat :=
  if part + 1 < p.parts then part + 1 else 0

/-- The rotation of a page moves on (R181 step 3). -/
def State.rotate (s : State) (p : StatusPage) : State :=
  s.mapSetup fun t =>
    match p with
    | .page0 => { t with nextPart0 := p.after t.nextPart0 }
    | .page1 => { t with nextPart1 := p.after t.nextPart1 }
    | .page2 => { t with nextPart2 := p.after t.nextPart2 }

/-- Building page 1 part 0 sets the longest outbox wait to 0 (R181). -/
def State.reportWait (s : State) (p : StatusPage) : State :=
  if p = .page1 ∧ s.nextPart p = 0 then s.withLongestWait 0 else s

/-- The reply to an ask of a page: built, placed, and the rotation moved on (R181). -/
def State.reply (s : State) (p : StatusPage) (origin : Byte) : State :=
  ((s.reportWait p).place .statusReply origin (s.replyPayload p)).rotate p

/-- The counting state after an ask's flags (R180). -/
def countingAfter (on off counting : Bool) : Bool :=
  if on && !off then true else if off && !on then false else counting

/-- CLEAR: every counter and the longest outbox wait become 0 (R180). -/
def State.clearCounters (s : State) : State :=
  (s.withStats Stats.zero).withLongestWait 0

/-- The flags of an ask applied: counting, then CLEAR (R180). -/
def State.applyFlags (s : State) (a : StatusAskFields) : State :=
  let s1 := s.mapSetup fun t => { t with counting := countingAfter a.countOn a.countOff t.counting }
  if a.clear then s1.clearCounters else s1

/-- The Setup Store takes a STATUS-ASK whole (R181). -/
def State.takeStatusAsk (s : State) (a : StatusAskFields) (origin : Byte) : State :=
  match statusPageOf a.page with
  | some p => (s.reply p origin).applyFlags a
  | none => s.applyFlags a

/-! ### SETUP (R178) -/

/-- A SETUP writes its page: the serial is the part's, the page is 0 to 7, and the SETUP line is held or the station runs
unconfigured (R178). -/
def State.setupWrites (s : State) (f : SetupFields) : Bool :=
  f.serial == serialBytes && decide (f.page ≤ 7) && (s.pins.setupLine || !s.setup.configured)

/-- The Setup Store takes a SETUP whole (R178). -/
def State.takeSetup (s : State) (f : SetupFields) : State :=
  if s.setupWrites f then
    (s.withStore (writeRecord s.store (32 * f.page) f.data)).tallySetup fun t => { t with written := sat t.written }
  else s.tallySetup fun t => { t with ignored := sat t.ignored }

/-! ### Start-up (R184) -/

/-- Steps 4 and 5 of start-up at a configured station: the first BEACON, the beacon timer, and the start of the Feed
Share Unit (R49, R173, R184). -/
def State.startStation (s : State) : State :=
  (s.placeBeacon.mapClock fun c =>
    { c with nextBeacon := some (s.uptime + s.settings.beaconInterval) }).startFeed

/-- The read of the setup record completes (R177, R184 steps 2 to 5). -/
def State.completeRead (s : State) : State :=
  let s1 := s.configure
  if s1.setup.configured then s1.startStation else s1

/-! ### The commands -/

/-- An accepted SETUP (R10, R178). -/
def State.receiveSetup (s : State) (f : Frame) : State :=
  s.handOn .setup f fun s => s.takeSetup (readSetup f.payload)

/-- An accepted STATUS-ASK (R10, R181). -/
def State.receiveStatusAsk (s : State) (f : Frame) : State :=
  s.handOn .statusAsk f fun s => s.takeStatusAsk (readStatusAsk f.payload) f.origin

/-- An accepted RESTART (R10, R183). -/
def State.receiveRestart (s : State) (f : Frame) : State :=
  s.handOn .restart f fun s => s.deviceReset

/-- SETUP (R178). -/
def execSetup (f : Frame) (s : State) : Host.Outcome State Fault Refusal :=
  .next (s.receiveSetup f)

/-- STATUS_ASK (R181). -/
def execStatusAsk (f : Frame) (s : State) : Host.Outcome State Fault Refusal :=
  .next (s.receiveStatusAsk f)

/-- RESTART (R183). -/
def execRestart (f : Frame) (s : State) : Host.Outcome State Fault Refusal :=
  .next (s.receiveRestart f)

/-- RESET_LINE (R183): the reset line is released, which is the reset instant. -/
def execResetLine (s : State) : Host.Outcome State Fault Refusal :=
  .next (s.withPins { s.pins with resetHeld := false }).deviceReset

/-- POWER_ON (R183). -/
def execPowerOn (s : State) : Host.Outcome State Fault Refusal :=
  .next s.deviceReset

/-- SETUP_READ_COMPLETE (R177): 1 ms of uptime after the reset. -/
def execSetupReadComplete (s : State) : Host.Outcome State Fault Refusal :=
  .next (if s.readDue then s.completeRead else s)

/-- RESET_LINE_HELD (R183): the part stays at its reset values while the line is held. -/
def execResetLineHeld (s : State) : Host.Outcome State Fault Refusal :=
  .next (s.withPins { s.pins with resetHeld := true }).deviceReset

end Sys2Proof.Machine
end

