-- ==== Sys2Proof/Machine/Link.lean ====
section
/-! DEFINITION. The Link Interface (01_the_truss_link.md): receive assemblers, relay FIFOs, transmitters, and the close of
a frame, which hands it to its consumer. -/

namespace Sys2Proof.Machine

/-! ### Ports -/

/-- The port opposite (R11). -/
def otherPort : Port → Port
  | .a => .b
  | .b => .a

/-- `s` with one port changed. -/
def State.mapPort (s : State) (p : Port) (f : PortState → PortState) : State :=
  s.withPort p (f (s.ports.get p))

/-! ### The relay FIFO (R12, R13) -/

/-- The bytes of committed frames still held (R13). -/
def RelayFifo.used (f : RelayFifo) : Nat :=
  (f.committed.map fun r => r.bytes.length).sum

/-- The free space (R13). -/
def RelayFifo.free (f : RelayFifo) : Nat :=
  512 - f.used

/-- The backup pointer, just past the last committed frame (R12, log 20). -/
def RelayFifo.backupPtr (f : RelayFifo) : Nat :=
  (f.readPtr + f.used) % 512

/-- The write pointer, just past the last byte written (R12, log 20). -/
def RelayFifo.writePtr (f : RelayFifo) : Nat :=
  (f.readPtr + f.used + (f.copy.map List.length).getD 0) % 512

/-- A relay copy opened with the header bytes (R13). -/
def RelayFifo.openCopy (f : RelayFifo) (header : List Byte) : RelayFifo :=
  { f with copy := some header }

/-- A further character written into the open copy, if there is one (R13). -/
def RelayFifo.append (f : RelayFifo) (c : Byte) : RelayFifo :=
  { f with copy := f.copy.map fun bs => bs ++ [c] }

/-- The open copy rolled back (R14). -/
def RelayFifo.rollback (f : RelayFifo) : RelayFifo :=
  { f with copy := none }

/-- The open copy, if there is one, committed as the newest frame (R14). -/
def RelayFifo.commit (f : RelayFifo) (ended : Nat) : RelayFifo :=
  match f.copy with
  | some bs => { f with committed := f.committed ++ [{ bytes := bs, ended := ended }], copy := none }
  | none => f

/-- The oldest committed frame leaves: the read pointer moves past it (R16). -/
def RelayFifo.advance (f : RelayFifo) : RelayFifo :=
  match f.committed with
  | r :: rest => { f with readPtr := (f.readPtr + r.bytes.length) % 512, committed := rest }
  | [] => f

/-- The relay FIFO of a port changed. -/
def State.mapFifo (s : State) (p : Port) (f : RelayFifo → RelayFifo) : State :=
  s.mapPort p fun x => { x with fifo := f x.fifo }

/-- The receive assembler of a port changed. -/
def State.mapAsm (s : State) (p : Port) (f : Assembler → Assembler) : State :=
  s.mapPort p fun x => { x with asm := f x.asm }

/-- The transmitter of a port changed. -/
def State.mapTx (s : State) (p : Port) (f : Transmitter → Transmitter) : State :=
  s.mapPort p fun x => { x with tx := f x.tx }

/-! ### Characters (R1, R4, R6) -/

/-- A header byte of the frame in progress (R23). -/
def Assembler.header (a : Assembler) (off : Nat) : Byte :=
  a.bytes.getD off 0

/-- How many characters the frame's length byte declares (Frame format). -/
def Assembler.declared (a : Assembler) : Nat :=
  9 + (a.header 6).toNat

/-- The relay decisions of R11 and R13. -/
inductive RelayDecision where
  | noCopy
  | hopLimit
  | relayFull
  | openCopy
deriving DecidableEq, Repr

/-- The relay decision at the header point, its tests in the order of R11. -/
def State.relayDecision (s : State) (p : Port) (a : Assembler) : RelayDecision :=
  if s.isOwnEcho (a.header 2) then .noCopy
  else if s.settings.station ≠ 0 ∧ (a.header 3).toNat = s.settings.station then .noCopy
  else if s.settings.hopLimit ≤ (a.header 5).toNat + 1 then .hopLimit
  else if (s.ports.get (otherPort p)).up = false then .noCopy
  else if (s.ports.get (otherPort p)).fifo.free < a.declared then .relayFull
  else .openCopy

/-- A relay decision carried out (R11, R13). -/
def State.decideRelay (s : State) (p : Port) : State :=
  let a := (s.ports.get p).asm
  match s.relayDecision p a with
  | .noCopy => s
  | .hopLimit => s.mapAsm p fun a => { a with hopStopped := true }
  | .relayFull => s.tallyPort p fun t => { t with relayFull := sat t.relayFull }
  | .openCopy => s.mapFifo (otherPort p) fun f => f.openCopy a.bytes

/-- A character stored by the assembler. -/
def Assembler.store (a : Assembler) (c : Byte) : Assembler :=
  { a with bytes := a.bytes ++ [c] }

/-- The assembler in a state. -/
def Assembler.enter (a : Assembler) (x : AsmState) : Assembler :=
  { a with state := x }

/-- IDLE takes the first character of a frame (R6). -/
def State.takeLead (s : State) (p : Port) (c : Byte) : State :=
  s.mapAsm p fun a => if c = lead then (a.store c).enter .header else a.enter .discard

/-- HEADER takes a character; the seventh is the header point (R6, R11). -/
def State.takeHeader (s : State) (p : Port) (c : Byte) : State :=
  let a := (s.ports.get p).asm.store c
  let s1 := s.mapAsm p fun _ => a
  if a.bytes.length < 7 then s1
  else if 48 < c.toNat then s1.mapAsm p fun a => a.enter .discard
  else (s1.mapAsm p fun a => a.enter .body).decideRelay p

/-- BODY takes a character; one beyond the expected count ends the frame and its relay copy (R6, R13, R14). -/
def State.takeBody (s : State) (p : Port) (c : Byte) : State :=
  let a := (s.ports.get p).asm
  if a.bytes.length < a.declared then
    (s.mapAsm p fun a => a.store c).mapFifo (otherPort p) fun f => f.append c
  else (s.mapAsm p fun a => a.enter .discard).mapFifo (otherPort p) RelayFifo.rollback

/-- A character counted in the frame in progress and in the port's silence time (R1, R2, R4). -/
def State.hearCharacter (s : State) (p : Port) (stopBit : Bool) : State :=
  s.mapPort p fun x =>
    { x with
      lastChar := s.uptime,
      asm := { x.asm with
        count := x.asm.count + 1, framingError := x.asm.framingError || !stopBit, lastEnd := s.clock.thirds } }

/-- A character taken by the assembler in its state (R6). -/
def State.takeCharacter (s : State) (p : Port) (c : Byte) (stopBit : Bool) : State :=
  let s1 := s.hearCharacter p stopBit
  match (s.ports.get p).asm.state with
  | .idle => s1.takeLead p c
  | .header => s1.takeHeader p c
  | .body => s1.takeBody p c
  | .discard => s1

/-! ### The close of a frame (R2, R7 to R10, R14) -/

/-- The bytes of a frame from kind through the last payload byte (R3). -/
def coveredBytes (bytes : List Byte) : List Byte :=
  (bytes.take (bytes.length - 2)).drop 1

/-- The check of a whole frame agrees with its last two bytes (R3). -/
def checkHolds (bytes : List Byte) : Bool :=
  (crc (coveredBytes bytes)).toNat = fieldAt bytes (bytes.length - 2) 2

/-- A closed frame passes: none of the cases of R7 holds. -/
def Assembler.passes (a : Assembler) : Bool :=
  a.state == .body && a.bytes.length == a.declared && a.count == a.bytes.length && !a.framingError && checkHolds a.bytes

/-- A closed frame as its consumer receives it (R10). -/
def Assembler.frame (a : Assembler) (p : Port) : Frame :=
  { port := p, origin := a.header 2, dest := a.header 3, groups := a.header 4, hops := a.header 5,
    payload := (a.bytes.take (a.bytes.length - 2)).drop 7, ended := a.lastEnd }

/-- A frame handed to the consumer of its kind; an unknown kind has none (R10). -/
def State.consume (s : State) (kind : Option FrameKind) (f : Frame) : State :=
  match kind with
  | some .beacon => s.receiveBeacon f
  | some .moveNote => s.receiveMoveNote f
  | some .matchNote => s.receiveMatchNote f
  | some .feedNote => s.receiveFeedNote f
  | some .statusReply => s.handOn .statusReply f fun s => s
  | some .cueLoad => s.receiveCueLoad f
  | some .cueGo => s.receiveCueGo f
  | some .cueRelease => s.receiveCueRelease f
  | some .cueClear => s.receiveCueClear f
  | some .protect => s.receiveProtect f
  | some .homeAsk => s.receiveHomeAsk f
  | some .statusAsk => s.receiveStatusAsk f
  | some .restart => s.receiveRestart f
  | some .setup => s.receiveSetup f
  | none => s

/-- A discarded frame (R7, R14). -/
def State.discardFrame (s : State) (p : Port) : State :=
  (s.mapFifo (otherPort p) RelayFifo.rollback).tallyPort p fun t => { t with checkFailures := sat t.checkFailures }

/-- An own echo (R8, R14). -/
def State.ownEcho (s : State) (p : Port) : State :=
  (s.mapFifo (otherPort p) RelayFifo.rollback).tallyPort p fun t => { t with ownEchoes := sat t.ownEchoes }

/-- The relay copy of a frame that passes is settled, and a stop by the hop limit counted (R11, R14). -/
def State.settleCopy (s : State) (p : Port) (a : Assembler) : State :=
  let s1 := s.mapFifo (otherPort p) fun f => f.commit a.lastEnd
  if a.hopStopped then s1.tallyPort p fun t => { t with hopLimited := sat t.hopLimited } else s1

/-- The assembler returns to IDLE (R6). -/
def State.resetAsm (s : State) (p : Port) : State :=
  s.mapAsm p fun a => { Assembler.initial with lastEnd := a.lastEnd }

/-- A frame that has passed its check brings its port UP (R4). -/
def State.portComesUp (s : State) (p : Port) : State :=
  s.mapPort p fun x => { x with up := true }

/-- The frame in progress on a port closes (R2). DESIGN CHOICE: its port comes UP, its relay copy is settled, and a stop of that
copy by the hop limit (R11) is counted, before the frame is consumed, so a STATUS-ASK reports that count with its own stop in it
and its CLEAR then sets it to 0 (log 33). -/
def State.closeFrame (s : State) (p : Port) : State :=
  let a := (s.ports.get p).asm
  let s1 := s.resetAsm p
  if a.passes then
    let s2 := s1.portComesUp p
    if s2.isOwnEcho (a.header 2) then s2.ownEcho p
    else (s2.settleCopy p a).consume (kindOfCode (a.header 1)) (a.frame p)
  else s1.discardFrame p

/-! ### A port goes DOWN (R5) -/

/-- The committed frames that stay as a port goes DOWN: the one in transmission (R5). -/
def PortState.keptFrames (x : PortState) : List RelayFrame :=
  if x.tx.current.any fun t => t.source == .relayed then x.fifo.committed.take 1 else []

/-- An entry without a port: it leaves the waited set, and the send set of every class but BEACON (R5). -/
def Entry.without (e : Entry) (c : FrameClass) (p : Port) : Entry :=
  { e with waited := e.waited.set p false, send := if c = .beacon then e.send else e.send.set p false }

/-- A port removed from the entry of a class, which is freed when that covers it (R5, R20). -/
def State.withdraw (s : State) (p : Port) (c : FrameClass) : State :=
  let slot := s.outbox.get c
  (s.withOutbox (s.outbox.set c { slot with entry := slot.entry.map fun e => e.without c p })).freeIfCovered c

/-- A port goes DOWN, and what waited to leave on it is withdrawn (R5). DESIGN CHOICE: the read pointer stays, and the backup
and write pointers come back to it, or to the end of the frame in transmission (log 20). -/
def State.portDown (s : State) (p : Port) : State :=
  let x := s.ports.get p
  let flushed := x.fifo.committed.length - x.keptFrames.length
  let s1 := (s.withPort p
    { x with up := false, fifo := { x.fifo with committed := x.keptFrames, copy := none } }).tallyPort p
      fun t => { t with relayFlushed := satBy flushed t.relayFlushed }
  FrameClass.byPriority.foldl (fun s c => s.withdraw p c) s1

/-! ### Transmission (R16, R20) -/

/-- What a transmitter takes at a choice point, and whether it is sent ahead of a committed relayed frame (R16). -/
inductive Choice where
  | relayed (r : RelayFrame)
  | own (c : FrameClass) (ahead : Bool)
  | nothing
deriving DecidableEq, Repr

/-- The outbox arbiter's choice as a transmitter's (R16, R19). -/
def State.ownChoice (s : State) (p : Port) (ahead : Bool) : Choice :=
  match s.arbiter p with
  | some c => .own c ahead
  | none => .nothing

/-- The choice of R16, its four steps in order. -/
def State.choose (s : State) (p : Port) : Choice :=
  let x := s.ports.get p
  match x.fifo.committed with
  | r :: _ =>
    if x.tx.sentAhead then .relayed r
    else if s.ownWaited p then s.ownChoice p true
    else .relayed r
  | [] => s.ownChoice p false

/-- The frame of a class as its entry has it leave (R21). -/
def State.entryBytes (s : State) (c : FrameClass) : List Byte :=
  match (s.outbox.get c).entry with
  | some e => s.ownFrame c e
  | none => []

/-- A transmission starts with a choice (R15, R16, R21). -/
def State.startChoice (s : State) (p : Port) (c : Choice) : State :=
  match c with
  | .relayed r =>
    s.mapTx p fun t =>
      { t with
        current := some { source := .relayed, bytes := relayEdit r s.clock.thirds, started := s.clock.thirds },
        sentAhead := false }
  | .own c ahead =>
    s.mapTx p fun t =>
      { t with
        current := some { source := .own c true, bytes := s.entryBytes c, started := s.clock.thirds },
        sentAhead := ahead }
  | .nothing => s

/-- A transmission has ended and the line is idle (R16). -/
def Transmitter.finish (t : Transmitter) : Transmitter :=
  { t with current := none, lastEnded := t.current.map Transmission.endsAt }

/-- The transmission of a relayed frame ends (R16). -/
def State.relayedSent (s : State) (p : Port) : State :=
  ((s.mapTx p Transmitter.finish).mapFifo p RelayFifo.advance).tallyPort p
    fun t => { t with framesRelayed := sat t.framesRelayed }

/-- A port joins the sent set of the entry of a class (R20). -/
def State.joinSent (s : State) (p : Port) (c : FrameClass) : State :=
  let slot := s.outbox.get c
  match slot.entry with
  | some e =>
    ((s.withOutbox (s.outbox.set c { slot with entry := some { e with sent := e.sent.set p true } })).tallyPort p
      fun t => { t with ownFramesOut := sat t.ownFramesOut }).freeIfCovered c
  | none => s

/-- What the transmission under way carries. -/
def Transmitter.source (t : Transmitter) : Option TxSource :=
  t.current.map fun x => x.source

/-- The transmission of an own frame ends; only the entry's present content enters the port into its sent set (R18, R20;
log 13). -/
def State.ownSent (s : State) (p : Port) : State :=
  let s1 := s.mapTx p Transmitter.finish
  match (s.ports.get p).tx.source with
  | some (.own c true) => s1.joinSent p c
  | some (.own _ false) => s1
  | some .relayed => s
  | none => s

/-! ### The commands -/

/-- CHARACTER_RECEIVED (R6): no port takes a character until the setup record has been read (R177). -/
def execCharacterReceived (p : Port) (c : Byte) (stopBit : Bool) (s : State) : Host.Outcome State Fault Refusal :=
  .next (if s.setup.readDone then s.takeCharacter p c stopBit else s)

/-- FRAME_CLOSE (R2). -/
def execFrameClose (p : Port) (s : State) : Host.Outcome State Fault Refusal :=
  .next (if s.closeDue p then s.closeFrame p else s)

/-- PORT_SILENCE_TIMEOUT (R5). -/
def execPortSilenceTimeout (p : Port) (s : State) : Host.Outcome State Fault Refusal :=
  .next (if s.silenceDue p then s.portDown p else s)

/-- CHOICE_POINT (R16). -/
def execChoicePoint (p : Port) (s : State) : Host.Outcome State Fault Refusal :=
  .next (if s.choiceDue p then s.startChoice p (s.choose p) else s)

/-- RELAYED_FRAME_SENT (R16). -/
def execRelayedFrameSent (p : Port) (s : State) : Host.Outcome State Fault Refusal :=
  .next (if s.relayEnded p then s.relayedSent p else s)

/-- OWN_FRAME_SENT (R20). -/
def execOwnFrameSent (p : Port) (s : State) : Host.Outcome State Fault Refusal :=
  .next (if s.ownEnded p then s.ownSent p else s)

/-- STATUS_REPLY (R10): counted in frames in, and dropped. -/
def execStatusReply (f : Frame) (s : State) : Host.Outcome State Fault Refusal :=
  .next (s.handOn .statusReply f fun s => s)

end Sys2Proof.Machine
end

