-- ==== Sys2Proof/Machine/Dispatch.lean ====
section
/-! DEFINITION. The meaning of every command: one arm for each row of the table. -/

namespace Sys2Proof.Machine

def exec (i : Instr) (s : State) : Host.Outcome State Fault Refusal :=
  match i with
  | .characterReceived p c stopBit => Sys2Proof.Machine.execCharacterReceived p c stopBit s
  | .frameClose p => Sys2Proof.Machine.execFrameClose p s
  | .portSilenceTimeout p => Sys2Proof.Machine.execPortSilenceTimeout p s
  | .choicePoint p => Sys2Proof.Machine.execChoicePoint p s
  | .relayedFrameSent p => Sys2Proof.Machine.execRelayedFrameSent p s
  | .ownFrameSent p => Sys2Proof.Machine.execOwnFrameSent p s
  | .beacon f => Sys2Proof.Machine.execBeacon f s
  | .catchUpSlew => Sys2Proof.Machine.execCatchUpSlew s
  | .holdoverEntry => Sys2Proof.Machine.execHoldoverEntry s
  | .holdoverToFree => Sys2Proof.Machine.execHoldoverToFree s
  | .seekToFree => Sys2Proof.Machine.execSeekToFree s
  | .beaconTimer => Sys2Proof.Machine.execBeaconTimer s
  | .peerAgeOut station => Sys2Proof.Machine.execPeerAgeOut station s
  | .feedPartLapse station => Sys2Proof.Machine.execFeedPartLapse station s
  | .matchPartLapse station => Sys2Proof.Machine.execMatchPartLapse station s
  | .feedNote f => Sys2Proof.Machine.execFeedNote f s
  | .matchNote f => Sys2Proof.Machine.execMatchNote f s
  | .statusReply f => Sys2Proof.Machine.execStatusReply f s
  | .cueLoad f => Sys2Proof.Machine.execCueLoad f s
  | .cueClear f => Sys2Proof.Machine.execCueClear f s
  | .protect f => Sys2Proof.Machine.execProtect f s
  | .cueGo f => Sys2Proof.Machine.execCueGo f s
  | .pendingGoTick => Sys2Proof.Machine.execPendingGoTick s
  | .followTick => Sys2Proof.Machine.execFollowTick s
  | .laneTick g => Sys2Proof.Machine.execLaneTick g s
  | .cueRelease f => Sys2Proof.Machine.execCueRelease f s
  | .gatherClose => Sys2Proof.Machine.execGatherClose s
  | .moveNote f => Sys2Proof.Machine.execMoveNote f s
  | .earlyNoteLapse entry => Sys2Proof.Machine.execEarlyNoteLapse entry s
  | .darkStart => Sys2Proof.Machine.execDarkStart s
  | .colourBoundary => Sys2Proof.Machine.execColourBoundary s
  | .nextMatchTime => Sys2Proof.Machine.execNextMatchTime s
  | .emitterPwmPeriod => Sys2Proof.Machine.execEmitterPwmPeriod s
  | .axisBoundary x => Sys2Proof.Machine.execAxisBoundary x s
  | .bridgePwmPeriod => Sys2Proof.Machine.execBridgePwmPeriod s
  | .overcurrentEvent x c => Sys2Proof.Machine.execOvercurrentEvent x c s
  | .homeAsk f => Sys2Proof.Machine.execHomeAsk f s
  | .senseScan emitterRaw driverRaw feedRaw => Sys2Proof.Machine.execSenseScan emitterRaw driverRaw feedRaw s
  | .indexEdge x e => Sys2Proof.Machine.execIndexEdge x e s
  | .feedBoundary => Sys2Proof.Machine.execFeedBoundary s
  | .settleEnd => Sys2Proof.Machine.execSettleEnd s
  | .tripEnd => Sys2Proof.Machine.execTripEnd s
  | .nextNoteTime => Sys2Proof.Machine.execNextNoteTime s
  | .bridgeEnable => Sys2Proof.Machine.execBridgeEnable s
  | .setup f => Sys2Proof.Machine.execSetup f s
  | .statusAsk f => Sys2Proof.Machine.execStatusAsk f s
  | .restart f => Sys2Proof.Machine.execRestart f s
  | .resetLine => Sys2Proof.Machine.execResetLine s
  | .powerOn => Sys2Proof.Machine.execPowerOn s
  | .setupReadComplete => Sys2Proof.Machine.execSetupReadComplete s
  | .resetLineHeld => Sys2Proof.Machine.execResetLineHeld s

end Sys2Proof.Machine
end

