-- ==== Sys2Proof/Machine/Timing.lean ====
section
/-! DEFINITION. What the block does of its own accord on an empty queue: the steps whose instant has come, in one fixed
order (log 2), and the passing of time (log 1). -/

namespace Sys2Proof.Machine

/-- A command, when its instant has come. -/
def whenDue (b : Bool) (c : Instr) : Option Instr :=
  if b then some c else none

/-- The command of a station's record, for the first record of which a test holds. -/
def State.peerCommand (s : State) (test : PeerRecord → Bool) (c : Byte → Instr) : Option Instr :=
  (s.peers.find? test).map fun r => c (BitVec.ofNat 8 r.station)

/-- The first entry of the early note table whose lapse has come (R104). -/
def State.earlyCommand (s : State) : Option Instr :=
  ((List.finRange 4).find? fun i => s.play.early[i.val]?.any s.earlyDue).map .earlyNoteLapse

/-- Every step of the block's own whose instant has come, in the order in which they are taken on an empty queue
(log 2). -/
def State.dueCommands (s : State) : List (Option Instr) :=
  [whenDue s.readDue .setupReadComplete,
   whenDue (s.relayEnded .a) (.relayedFrameSent .a),
   whenDue (s.relayEnded .b) (.relayedFrameSent .b),
   whenDue (s.ownEnded .a) (.ownFrameSent .a),
   whenDue (s.ownEnded .b) (.ownFrameSent .b),
   whenDue (s.closeDue .a) (.frameClose .a),
   whenDue (s.closeDue .b) (.frameClose .b),
   whenDue (s.silenceDue .a) (.portSilenceTimeout .a),
   whenDue (s.silenceDue .b) (.portSilenceTimeout .b),
   whenDue s.slewDue .catchUpSlew,
   whenDue s.holdoverDue .holdoverEntry,
   whenDue s.holdoverLossDue .holdoverToFree,
   whenDue s.seekLossDue .seekToFree,
   whenDue (s.reached s.clock.nextBeacon) .beaconTimer,
   s.peerCommand s.ageOutDue .peerAgeOut,
   s.peerCommand s.feedLapseDue .feedPartLapse,
   s.peerCommand s.matchLapseDue .matchPartLapse,
   whenDue (s.tickReached (s.play.pendingGo.map fun g => g.tick)) .pendingGoTick,
   whenDue (s.tickReached (s.play.follow.map fun f => f.tick)) .followTick,
   whenDue (s.tickReached (s.play.gather.map fun g => g.closeTick)) .gatherClose,
   whenDue (s.laneDue s.play.pos.timing) (.laneTick .position),
   whenDue (s.laneDue s.play.intensity.timing) (.laneTick .intensity),
   whenDue (s.laneDue s.play.colour.timing) (.laneTick .colour),
   s.earlyCommand,
   whenDue (s.sense.nextScan ≤ s.uptime) (.senseScan s.pins.emitterRaw s.pins.driverRaw s.pins.feedRaw),
   whenDue s.settleDue .settleEnd,
   whenDue (s.reached s.feed.tripEnd) .tripEnd,
   whenDue s.feedNoteDue .nextNoteTime,
   whenDue s.matchNoteDue .nextMatchTime,
   whenDue (!s.marks.playback.isEmpty) .darkStart,
   whenDue (!s.marks.axes.pan.isEmpty) (.axisBoundary .pan),
   whenDue (!s.marks.axes.tilt.isEmpty) (.axisBoundary .tilt),
   whenDue (!s.marks.colour.isEmpty) .colourBoundary,
   whenDue (!s.marks.feed.isEmpty) .feedBoundary,
   whenDue (s.feed.enabling == .due) .bridgeEnable,
   whenDue (3 * s.colour.nextPeriod ≤ s.clock.thirds) .emitterPwmPeriod,
   whenDue (3 * s.bridgeNext ≤ s.clock.thirds) .bridgePwmPeriod,
   whenDue (s.choiceDue .a) (.choicePoint .a),
   whenDue (s.choiceDue .b) (.choicePoint .b)]

/-- The step of the block's own that is taken next on an empty queue, if the instant of one has come (log 2). -/
def State.dueCommand (s : State) : Option Instr :=
  s.dueCommands.findSome? id

/-- What the block does on an empty queue: its own next step, or a third of a microsecond passes; while the reset line is
held it stays as it is (R183; logs 1, 2 and 29). -/
def State.idleStep (s : State) : Host.Outcome State Fault Refusal :=
  if s.pins.resetHeld then .next s
  else
    match s.dueCommand with
    | some c => exec c s
    | none => .next s.passTime

/-- A command put at the front of the queue. -/
def State.withFront (s : State) (c : Instr) : State :=
  { s with pending := c :: s.pending }

/-- The queue without its front. -/
def State.withRest (s : State) (rest : List Instr) : State :=
  { s with pending := rest }

end Sys2Proof.Machine
end

