-- ==== Sys2Proof/Machine/Step.lean ====
section
/-! DEFINITION. One step of the block: the command at the front of the queue, or what the block does of its own
accord. -/

namespace Sys2Proof.Machine

/-- One step: the command at the front of the queue is taken from it and run; on an empty queue the block takes its own
next step or lets time pass (logs 1 and 2). -/
def step (s : State) : Host.Outcome State Fault Refusal :=
  match s.pending with
  | c :: rest => exec c (s.withRest rest)
  | [] => s.idleStep

/-- `s` with the command that a word spells put at the front of its queue; `s` where the word spells none (log 8). -/
def State.withFetchWord (s : State) (nbits w : Nat) : State :=
  match Sys2Proof.decodeTableWord nbits w with
  | some c => s.withFront c
  | none => s

end Sys2Proof.Machine
end

