-- ==== Sys2Proof/Safety.lean ====
section
/-! DEFINITION. What the statements speak of: frames a station takes, counters that go up, and the invariants a safe run
keeps. -/

namespace Sys2Proof.Machine

/-! ### Outcomes -/

/-- Whatever next state an outcome answers, it has a property. -/
def Ensures (o : Host.Outcome State Fault Refusal) (p : State → Prop) : Prop :=
  ∀ t, o = .next t → p t

/-- The property holds after every step from a state that has it. -/
def KeptByStep (p : State → Prop) : Prop :=
  ∀ s, p s → Ensures (step s) p

/-- A state is what a device reset leaves of another: every block at its reset values, with the setup record, the pins'
levels and the queue apart (R183). -/
def IsReset (t : State) : Prop :=
  t = { State.reset with store := t.store, pins := t.pins, pending := t.pending }

/-! ### Arithmetic (00_scope.md, section 4.3) -/

/-- `r` is the exact quotient `n / d` rounded half away from zero. -/
def RoundedTo (n : Int) (d : Nat) (r : Int) : Prop :=
  2 * (r * d - n).natAbs ≤ d ∧ (2 * (r * d - n).natAbs = d → n.natAbs < (r * d).natAbs)

/-! ### Frames (R9, R10) -/

/-- A configured station that has read its record accepts a frame: it passes R9. -/
def Addressed (s : State) (f : Frame) : Prop :=
  s.setup.readDone = true ∧ s.setup.configured = true ∧ 1 ≤ f.origin.toNat ∧ f.origin.toNat ≤ 250 ∧
    f.origin.toNat ≠ s.settings.station ∧
    (f.dest.toNat = s.settings.station ∨ f.dest.toNat = 255 ∨
      (f.dest.toNat = 0 ∧ f.groups &&& s.settings.groups ≠ 0))

/-- A row of the table of frame kinds: its code, and the shortest and longest payload it may have (R10). -/
structure KindRow where
  kind : FrameKind
  code : Byte
  shortest : Nat
  longest : Nat
deriving DecidableEq, Repr

/-- The table of frame kinds (R10). -/
def kindTable : List KindRow :=
  [⟨.beacon, 0x01, 14, 14⟩, ⟨.moveNote, 0x02, 11, 11⟩, ⟨.matchNote, 0x03, 10, 10⟩, ⟨.feedNote, 0x04, 4, 4⟩,
   ⟨.statusReply, 0x05, 1, 48⟩, ⟨.cueLoad, 0x20, 31, 31⟩, ⟨.cueGo, 0x21, 6, 6⟩, ⟨.cueRelease, 0x22, 6, 6⟩,
   ⟨.cueClear, 0x23, 4, 4⟩, ⟨.protect, 0x24, 2, 2⟩, ⟨.homeAsk, 0x25, 1, 1⟩, ⟨.statusAsk, 0x26, 2, 2⟩,
   ⟨.restart, 0x27, 0, 0⟩, ⟨.setup, 0x28, 41, 41⟩]

/-- A payload has the length R10 requires of a kind. -/
def RightSize (k : FrameKind) (f : Frame) : Prop :=
  k.lengths.1 ≤ f.payload.length ∧ f.payload.length ≤ k.lengths.2

/-- A configured station takes a frame of a kind (R9, R10). -/
def Taken (s : State) (k : FrameKind) (f : Frame) : Prop :=
  Addressed s f ∧ RightSize k f

/-- The command that hands a frame of a kind to its consumer. -/
def commandOf (k : FrameKind) (f : Frame) : Instr :=
  match k with
  | .beacon => .beacon f
  | .moveNote => .moveNote f
  | .matchNote => .matchNote f
  | .feedNote => .feedNote f
  | .statusReply => .statusReply f
  | .cueLoad => .cueLoad f
  | .cueGo => .cueGo f
  | .cueRelease => .cueRelease f
  | .cueClear => .cueClear f
  | .protect => .protect f
  | .homeAsk => .homeAsk f
  | .statusAsk => .statusAsk f
  | .restart => .restart f
  | .setup => .setup f

/-- One more frame in on the port of a frame, while counting is on (R10, R22). -/
def State.heard (s : State) (f : Frame) : State :=
  s.tallyPort f.port fun t => { t with framesIn := min (t.framesIn + 1) 65535 }

/-- A counter after an event, while counting is on or off (R180 and 00_scope.md, section 4.3). -/
def State.counter (s : State) (n : Nat) : Nat :=
  if s.setup.counting then min (n + 1) 65535 else n

/-! ### Link Interface -/

/-- A transmitter that has something to send may start: its line has been idle for three character times (R16). -/
def LineIdle (s : State) (p : Port) : Prop :=
  (s.ports.get p).tx.current = none ∧ ∀ e, (s.ports.get p).tx.lastEnded = some e → e + 30 ≤ s.clock.thirds

/-- The frame in progress on a port closes: its line has been idle for two character times, up to now or to the start bit of
a character begun since (R2). -/
def Closes (s : State) (p : Port) : Prop :=
  0 < (s.ports.get p).asm.count ∧ (s.ports.get p).asm.lastEnd + 20 ≤ s.clock.thirds ∧
    ∀ t, s.pins.startBit.get p = some t → (s.ports.get p).asm.lastEnd ≤ t → (s.ports.get p).asm.lastEnd + 20 ≤ t

/-- The frame an assembler holds passes: whole, of the declared count, without framing error, its check right (R7). -/
def Passes (a : Assembler) : Prop :=
  a.state = .body ∧ a.bytes.length = 9 + (a.bytes.getD 6 0).toNat ∧ a.count = a.bytes.length ∧ a.framingError = false ∧
    (crc ((a.bytes.take (a.bytes.length - 2)).drop 1)).toNat = fieldAt a.bytes (a.bytes.length - 2) 2

/-- Each relay FIFO holds at most 512 bytes, and an open copy has room for every character its frame declares
(R12, R13); an assembler in IDLE holds no character, and one in HEADER at most six (R6). -/
def FifosHold (s : State) : Prop :=
  ∀ p, (s.ports.get p).fifo.used ≤ 512 ∧
    (∀ bs, (s.ports.get p).fifo.copy = some bs →
      (s.ports.get (otherPort p)).asm.state = .body ∧ bs = (s.ports.get (otherPort p)).asm.bytes ∧ 7 ≤ bs.length ∧
        bs.length ≤ 9 + (bs.getD 6 0).toNat ∧ (s.ports.get p).fifo.used + (9 + (bs.getD 6 0).toNat) ≤ 512) ∧
    ((s.ports.get p).asm.state = .idle → (s.ports.get p).asm.bytes = []) ∧
    ((s.ports.get p).asm.state = .header → (s.ports.get p).asm.bytes.length ≤ 6)

/-! ### Outbox -/

/-- A port still has to send the entry of a class (R19). -/
def Owes (s : State) (p : Port) (c : FrameClass) : Prop :=
  ∃ e, (s.outbox.get c).entry = some e ∧ e.send.get p = true ∧ e.sent.get p = false

/-- The priority of a class, and its throttle interval in ms (R17). -/
def FrameClass.rank : FrameClass → Nat × Nat
  | .beacon => (1, 0)
  | .moveNote => (2, 0)
  | .feedNote => (3, 10)
  | .matchNote => (4, 20)
  | .statusReply => (5, 5)

/-- Less than its throttle interval has passed since the last entry of a class was freed (R19). -/
def Throttled (s : State) (c : FrameClass) : Prop :=
  ∃ t, (s.outbox.get c).lastFreed = some t ∧ s.clock.thirds / 3000 < t + c.rank.2

/-- The arbiter's choice for a port: the unthrottled class of highest priority that it owes, or the throttled one when it
owes no other (R19). -/
def Arbitrated (s : State) (p : Port) (c : FrameClass) : Prop :=
  Owes s p c ∧ (Throttled s c → ∀ d, Owes s p d → Throttled s d) ∧
    ∀ d, Owes s p d → (Throttled s d → Throttled s c) → c.rank.1 ≤ d.rank.1

/-- An entry the port still has to send has waited 2 ms or more (R16). -/
def OwnWaits (s : State) (p : Port) : Prop :=
  ∃ c e, Owes s p c ∧ (s.outbox.get c).entry = some e ∧ e.entryTime + 2 ≤ s.clock.thirds / 3000

/-- The bytes an entry leaves with: a header of the own station, a payload that in a BEACON carries the clock as it
stands, and the check over both (R21, R23, R49). -/
def OwnBytes (s : State) (c : FrameClass) (e : Entry) (out : List Byte) : Prop :=
  let code : Byte := match c with
    | .beacon => 0x01
    | .moveNote => 0x02
    | .matchNote => 0x03
    | .feedNote => 0x04
    | .statusReply => 0x05
  let clockState : Byte := match s.clock.mode with
    | .free => 0
    | .seek => 1
    | .locked => 2
    | .holdover => 3
  let payload :=
    if c = .beacon then
      [1, clockState] ++ beBytes 2 s.clock.epoch ++ beBytes 4 s.clock.ms ++ beBytes 2 s.clock.us ++ [0, 0, 0] ++
        [BitVec.ofNat 8 (s.settings.beaconInterval / 10)]
    else e.payload
  let covered :=
    [code, BitVec.ofNat 8 s.settings.station, e.dest, s.settings.groups, 0, BitVec.ofNat 8 payload.length] ++ payload
  out = [0xC5] ++ covered ++ beBytes 2 (crc covered).toNat

/-- What placing a frame of a class other than BEACON does: with a port UP the slot holds it, a pending entry's entry time
kept, for the ports that are UP; with none it is freed at once. A transmission of the class carries present content no
longer (R18, R20). -/
def NotePlaced (s t : State) (c : FrameClass) (dest : Byte) (payload : List Byte) : Prop :=
  let up := s.clock.thirds / 3000
  let since := ((s.outbox.get c).entry.map fun e => e.entryTime).getD up
  let ports : PerPort Bool := { a := s.ports.a.up, b := s.ports.b.up }
  let isSent := s.ports.a.up = true ∨ s.ports.b.up = true
  let slot : Slot :=
    if isSent then
      { entry := some
          { dest := dest, payload := payload, entryTime := since, waited := ports, send := ports,
            sent := { a := false, b := false } },
        lastFreed := (s.outbox.get c).lastFreed }
    else { entry := none, lastFreed := some up }
  t.outbox = s.outbox.set c slot ∧
    t.longestWait = (if isSent then s.longestWait else max s.longestWait (up - since)) ∧
    ∀ p, t.ports.get p = { s.ports.get p with
      tx := { (s.ports.get p).tx with
        current := (s.ports.get p).tx.current.map fun x =>
          if x.source = .own c true then { x with source := .own c false } else x } }

/-- What placing a BEACON does: its slot holds it for both ports, waiting for those that are UP or with none for both, a
pending entry's entry time kept. Its time fields are filled as it leaves. A transmission of a BEACON carries present content
no longer (R18, R49). -/
def BeaconEntered (s t : State) : Prop :=
  (∃ e, t.outbox = { s.outbox with beacon := { s.outbox.beacon with entry := some e } } ∧
    e.dest = 255 ∧ e.payload.length = 14 ∧ e.payload.getD 0 0 = 1 ∧
    e.payload.drop 10 = [0, 0, 0, BitVec.ofNat 8 (s.settings.beaconInterval / 10)] ∧
    e.send = { a := true, b := true } ∧ e.sent = { a := false, b := false } ∧
    e.waited = (if s.ports.a.up = false ∧ s.ports.b.up = false then { a := true, b := true }
      else { a := s.ports.a.up, b := s.ports.b.up }) ∧
    e.entryTime = (s.outbox.beacon.entry.map fun old => old.entryTime).getD (s.clock.thirds / 3000)) ∧
  t.longestWait = s.longestWait ∧
  ∀ p, t.ports.get p = { s.ports.get p with
    tx := { (s.ports.get p).tx with
      current := (s.ports.get p).tx.current.map fun x =>
        if x.source = .own .beacon true then { x with source := .own .beacon false } else x } }

/-- No frame is placed. -/
def NothingPlaced (s t : State) : Prop :=
  t.outbox = s.outbox ∧ t.ports = s.ports ∧ t.longestWait = s.longestWait

/-! ### Show Clock and Peer Table -/

/-- Show time lies within its range (R36). -/
def ShowTimeInRange (s : State) : Prop :=
  s.clock.showMicros ≤ maxShowMicros

/-- The peer table holds at most 24 records, of stations 1 to 250, none twice (R24, R25). -/
def PeersHold (s : State) : Prop :=
  s.peers.length ≤ 24 ∧ (s.peers.map fun r => r.station).Pairwise (· < ·) ∧
    ∀ r ∈ s.peers, 1 ≤ r.station ∧ r.station ≤ 250

/-! ### Cue Store -/

/-- The values of a held record lie within the ranges of R54, and it has at least one part. -/
def Cue.InRange (q : Cue) : Prop :=
  1 ≤ q.number ∧ q.number ≤ 9999 ∧ (q.pos.isSome ∨ q.col.isSome ∨ q.int.isSome) ∧
    (∀ p, q.pos = some p → p.target.pan ≤ 54000 ∧ p.target.tilt ≤ 27000 ∧ p.moveMs ≤ 60000 ∧ p.moveGroup ≤ 15) ∧
    (∀ c, q.col = some c → (∀ e, c.levels.get e ≤ 1000) ∧ c.ms ≤ 60000) ∧
    (∀ i, q.int = some i → i.level ≤ 1000 ∧ i.ms ≤ 60000) ∧
    q.delay ≤ 60000 ∧ (∀ m, q.follow = some m → m ≤ 600000)

/-- The cue list holds at most 128 records in strictly ascending number, each within its ranges, and the protect line is
0 to 9999 (R53, R54, R63). -/
def CuesHold (s : State) : Prop :=
  s.cues.cues.length ≤ 128 ∧ (s.cues.cues.map fun q => q.number).Pairwise (· < ·) ∧ (∀ q ∈ s.cues.cues, q.InRange) ∧
    s.cues.line ≤ 9999

/-- One more refusal: the last refusal record, counted (R64). -/
def State.refused (s : State) (kind : RefusalKind) (cue : Nat) (origin : Nat) : State :=
  ({ s with cues := { s.cues with refusal := some { kind := kind, cue := cue, origin := origin } } } : State).tallyCues
    fun t => { t with refusals := min (t.refusals + 1) 65535 }

/-! ### Playback Unit -/

/-- A cue is the one after a number: the held cue with the smallest number above it (R60). -/
def NextCue (s : State) (n : Nat) (q : Cue) : Prop :=
  q ∈ s.cues.cues ∧ n < q.number ∧ ∀ r ∈ s.cues.cues, n < r.number → q.number ≤ r.number

/-- A requested cue field resolves to a cue: the one of that number; for 0 the one after the last-taken GO's, or the first
of all without one (R75). -/
def ResolvesTo (s : State) (cueField : Nat) (q : Cue) : Prop :=
  (cueField ≠ 0 → q ∈ s.cues.cues ∧ q.number = cueField) ∧
    (cueField = 0 → ∀ g, s.play.lastGo = some g → NextCue s g.resolved q) ∧
    (cueField = 0 → s.play.lastGo = none → q ∈ s.cues.cues ∧ ∀ r ∈ s.cues.cues, q.number ≤ r.number)

/-- Two ticks lie within 20 ms of each other (R71, R83, R103). -/
def Within20 (x y : Int) : Prop :=
  -20 ≤ x - y ∧ x - y ≤ 20

/-- A CUE-GO is a duplicate of the pending GO or of the last-taken GO (R71). -/
def DuplicateGo (s : State) (cueField : Nat) (tick : Int) : Prop :=
  (∃ g, s.play.pendingGo = some g ∧ Within20 tick g.tick ∧ cueField = g.cueField) ∨
    ∃ g, s.play.lastGo = some g ∧ Within20 tick g.tick ∧ (cueField = g.cueField ∨ cueField = g.resolved)

/-- The ticks and state of a level lane set with start tick S and end tick E at a present show ms count (R77). -/
def TimingSet (startTick endTick now : Int) (t : Timing) : Prop :=
  t.endTick = some endTick ∧
    (endTick ≤ now → t.state = .hold ∧ t.startTick = startTick) ∧
    (now < endTick → now < startTick → t.state = .wait .delay ∧ t.startTick = startTick) ∧
    (now < endTick → startTick ≤ now → t.state = .fade ∧ t.startTick = now)

/-- The level lanes and records a take leaves, with its effective go tick and the carried one (R76, R77). -/
def LevelsTaken (s t : State) (q : Cue) (cueField : Nat) (goTick carried : Int) : Prop :=
  let now : Int := (s.clock.ms : Nat)
  let start := goTick + (q.delay : Nat)
  t.play.lastRelease = none ∧ t.play.lastGo = some { cueField := cueField, resolved := q.number, tick := carried } ∧
    t.play.follow = (q.follow.map fun ms => { tick := goTick + (ms : Nat), source := q.number }) ∧
    (q.int = none → t.play.intensity = s.play.intensity) ∧
    (∀ i, q.int = some i →
      t.play.intensity.target = i.level ∧ TimingSet start (start + (i.ms : Nat)) now t.play.intensity.timing ∧
        t.play.intensity.start = s.play.intensity.value now) ∧
    (q.col = none → t.play.colour = s.play.colour) ∧
    ∀ c, q.col = some c →
      t.play.colour.target = c.levels ∧ TimingSet start (start + (c.ms : Nat)) now t.play.colour.timing ∧
        ∀ e, t.play.colour.start.get e = s.play.colour.value e now

/-- The position lanes of a plain move with start tick S at a present show ms count: a DELAY wait for a start tick still to
come, otherwise a fade from now over what is left of the move time, or HOLD at once (R79). -/
def PlainMove (s : State) (start target : PerAxis Int) (moveMs : Nat) (startTick now : Int) (l : PosLanes) : Prop :=
  let plan := if now < startTick then s.plan start target moveMs 15000
    else s.plan start target (startTick + (moveMs : Nat) - now).toNat 15000
  l.target = plan.target ∧ l.plan = some plan.length ∧ l.moveMs = moveMs ∧
    l.timing.startTick = max now startTick ∧ l.timing.endTick = some (max now startTick + 4 * (plan.length : Nat)) ∧
    l.start = (if now < startTick ∨ 0 < plan.length then start else plan.target) ∧
    l.timing.state = if now < startTick then .wait .delay else if 0 < plan.length then .fade else .hold

/-- The finished gather record once an open gather has ended (R105, R107). -/
def finishedBy (s : State) : Option FinishedGather :=
  match s.play.gather with
  | some g => some { group := g.group, cue := g.cue, goTick := g.goTick }
  | none => s.play.finished

/-- A take opens no gather: one that was open has ended, and no early note is taken up (R107). -/
def NoGather (s t : State) : Prop :=
  t.play.gather = none ∧ t.play.finished = finishedBy s ∧ t.play.early = s.play.early ∧
    t.stats.plan.gathersOpened = s.stats.plan.gathersOpened ∧ NothingPlaced s t

/-- A take of a cue's grouped position part opens a gather: its record with the early notes that match, its MOVE-NOTE, its
lanes in WAIT; or all of these and the close, when the close tick has been reached (R101, R102, R105). -/
def GatherOpened (s t : State) (q : Cue) (p : PosPart) (goTick : Int) : Prop :=
  let now : Int := (s.clock.ms : Nat)
  let start : PerAxis Int := { pan := s.play.pos.value .pan now, tilt := s.play.pos.value .tilt now }
  let onto : PerAxis Int := { pan := (p.target.pan : Nat), tilt := (p.target.tilt : Nat) }
  let plan := s.plan start onto p.moveMs 15000
  let closes := goTick + (q.delay : Nat) + (s.settings.gatherWindow : Nat)
  let ends := closes + 4 * (plan.length : Nat)
  let agrees := fun (n : EarlyNote) =>
    n.group = p.moveGroup ∧ n.cue = q.number ∧ -20 ≤ goTick - n.goTick ∧ goTick - n.goTick ≤ 20
  let taken := s.play.early.filter fun n => agrees n
  let g : Gather :=
    { group := p.moveGroup, cue := q.number, goTick := goTick, closeTick := closes, ownPlan := plan.length,
      ownEnd := ends, groupEnd := (taken.map fun n => n.proposedEnd).foldl max ends, notes := min taken.length 255 }
  let longest := max 15000 plan.length
  let last := s.plan start plan.target (min g.groupEnd (closes + 4 * (longest : Nat)) - now).toNat longest
  t.play.early = (s.play.early.filter fun n => ¬ agrees n) ∧
    t.stats.plan.gathersOpened = s.counter s.stats.plan.gathersOpened ∧
    NotePlaced s t .moveNote 255
      (beBytes 1 p.moveGroup ++ beBytes 2 q.number ++ beBytes 4 goTick.toNat ++ beBytes 4 ends.toNat) ∧
    (now < closes → t.play.gather = some g ∧ t.play.finished = finishedBy s ∧
      t.play.pos =
        { timing := { state := .wait .gather, startTick := closes, endTick := none }, start := start,
          target := plan.target, plan := none, moveMs := p.moveMs }) ∧
    (closes ≤ now → t.play.gather = none ∧
      t.play.finished = some { group := p.moveGroup, cue := q.number, goTick := goTick } ∧
      t.play.pos =
        { timing := { state := if last.length = 0 then .hold else .fade, startTick := now,
                      endTick := some (now + 4 * (last.length : Nat)) },
          start := if last.length = 0 then last.target else start, target := last.target, plan := some last.length,
          moveMs := p.moveMs })

/-- The position lanes and the gather a take leaves: an open gather is cancelled, and its lanes planned at once when the
cue sets none; a dark part waits for dark; a grouped one opens a gather, unless its ticks fall outside show time; and any
other makes a plain move (R76, R78, R101, R107). -/
def PositionTaken (s t : State) (q : Cue) (goTick : Int) (mayGroup : Prop) : Prop :=
  let now : Int := (s.clock.ms : Nat)
  let begins := goTick + (q.delay : Nat)
  let start : PerAxis Int := { pan := s.play.pos.value .pan now, tilt := s.play.pos.value .tilt now }
  (t.stats.plan.gathersCancelled =
      if s.play.gather = none then s.stats.plan.gathersCancelled else s.counter s.stats.plan.gathersCancelled) ∧
    (q.pos = none → NoGather s t ∧ (s.play.gather = none → t.play.pos = s.play.pos) ∧
      (s.play.gather ≠ none →
        PlainMove s s.play.pos.start s.play.pos.target s.play.pos.moveMs now now t.play.pos)) ∧
    ∀ p, q.pos = some p →
      let onto : PerAxis Int := { pan := (p.target.pan : Nat), tilt := (p.target.tilt : Nat) }
      let ends := begins + (s.settings.gatherWindow : Nat) + 4 * ((s.plan start onto p.moveMs 15000).length : Nat)
      let isShown := 0 ≤ goTick ∧ goTick ≤ 4294967295 ∧ 0 ≤ ends ∧ ends ≤ 4294967295
      (p.dark = true → NoGather s t ∧
        t.play.pos =
          { timing := { state := .wait .dark, startTick := begins, endTick := none }, start := start, target := onto,
            plan := none, moveMs := p.moveMs }) ∧
      (p.dark = false → (p.moveGroup = 0 ∨ ¬ mayGroup ∨ ¬ isShown) →
        NoGather s t ∧ PlainMove s start onto p.moveMs begins now t.play.pos) ∧
      (p.dark = false → p.moveGroup ≠ 0 → mayGroup → isShown → GatherOpened s t q p goTick)

/-! ### Colour Renderer -/

/-- Every emitter is dark: duties, schedule, preload and running on-count 0 (R123). -/
def Dark (s : State) : Prop :=
  ∀ e, (s.colour.emitters.get e).unpulled = 0 ∧ (s.colour.emitters.get e).duty = 0 ∧
    (s.colour.emitters.get e).base = 0 ∧ (s.colour.emitters.get e).frac = 0 ∧
    (s.colour.emitters.get e).preload = 0 ∧ (s.colour.emitters.get e).running = 0

/-- The emitters of one state are those of another with their duties, schedules, preloads and running on-counts 0: A, C and R
stay (R123). -/
def Doused (s t : State) : Prop :=
  ∀ e, t.colour.emitters.get e =
    { s.colour.emitters.get e with unpulled := 0, duty := 0, base := 0, frac := 0, preload := 0, running := 0 }

/-- The feed is TRIPPED or an axis is HOMING (R123). -/
def MustBeDark (s : State) : Prop :=
  s.feed.tripEnd ≠ none ∨ ∃ x p, (s.axes.get x).mode = .homing p

/-- The emitters are dark whenever the feed is TRIPPED or an axis is HOMING (R123). -/
def DarkWhenForced (s : State) : Prop :=
  MustBeDark s → Dark s

/-- The ceilings and duties keep their bounds: R at most A, the duties at most 65536 and the driven one at most the
unpulled one, each dither schedule that of its duty (R118, R121, R122, R124). -/
def ColourHolds (s : State) : Prop :=
  s.feed.pull ≤ 1000 ∧ s.colour.pAnn ≤ 1000 ∧
    ∀ e, (s.colour.emitters.get e).rendered ≤ (s.colour.emitters.get e).achievable ∧
      (s.colour.emitters.get e).unpulled ≤ 65536 ∧
      (s.colour.emitters.get e).duty ≤ (s.colour.emitters.get e).unpulled ∧
      (s.colour.emitters.get e).base = (s.colour.emitters.get e).duty / 16 ∧
      (s.colour.emitters.get e).frac = (s.colour.emitters.get e).duty % 16

/-! ### Axis drivers and Feed Share Unit -/

/-- What the preload of a coil holds once it is rewritten: the drive of the present output microstep at the present axis
current, with duty 0 while the current is none or the bridges are not driven (R130, R138). -/
def AxisState.preloadOf (a : AxisState) (st : AxisSettings) (c : Coil) : Drive :=
  let v := coilValue st.isReversed c a.output
  let duty := fun (i : Nat) =>
    min ((2 * (1600 * v.natAbs * i) + 1000 * st.fullScale) / (2 * (1000 * st.fullScale))) 1600
  { duty := if a.bridgeEnable = true ∧ a.mode ≠ .tripped then (a.current.map duty).getD 0 else 0,
    negative := decide (v < 0) }

/-- An axis with both its preloads rewritten, and the running duties and directions as they were (R138). -/
def AxisState.preloaded (a : AxisState) (st : AxisSettings) : AxisState :=
  { a with
    coilA := { preload := a.preloadOf st .a, running := a.coilA.running },
    coilB := { preload := a.preloadOf st .b, running := a.coilB.running } }

/-- An axis that homing begins for: SEEK from the present position, with the pass, the pending slip, the request and the
reference capture given up (R154). -/
def AxisState.homingBegun (a : AxisState) : AxisState :=
  { a with
    mode := .homing .seek, slipPending := false, pass := none, request := none, lag := none,
    phaseEntry := a.pos16 / 16, reference := none }

/-- An axis that a boundary gives a velocity: its position moved by it, held within the range of pos16, and a new walk from
its output to the position (R128, R133, R136). -/
def AxisState.carried (a : AxisState) (v : Int) : AxisState :=
  let p := max (-134217728) (min 134217727 (a.pos16 + v))
  { a with v16 := v, pos16 := p, walk := { origin := a.output, target := p / 16, walked := 0 } }

/-- The velocity of the follow limiter for an axis toward a setpoint (R132). -/
def followed (st : AxisSettings) (grant : Nat) (a : AxisState) (setpoint : Int) : Int :=
  let aEff := effectiveAccel st grant
  let e16 := setpoint * 16 - a.pos16
  let m : Int := (min (16 * st.vmax) (brakeCap aEff e16.natAbs) : Nat)
  max (a.v16 - (aEff : Nat)) (min (a.v16 + (aEff : Nat)) (max (-m) (min m e16)))

/-- The state after a boundary that an axis driver takes, of which the axis becomes `y` (R50, R131, R138). -/
def boundaryTaken (s : State) (x : Axis) (rest : List Int) (y : AxisState) : State :=
  { s with
    marks := { s.marks with axes := s.marks.axes.set x rest },
    axes := s.axes.set x (y.preloaded (s.settings.axes.get x)) }

/-- No axis is faster than 16 × vmax, homing asks for no more than vmax, and before the setup record has been read every
axis stands UNSURE with its bridges off (R132, R147, R184). -/
def SpeedHolds (s : State) : Prop :=
  ∀ x, (s.axes.get x).v16.natAbs ≤ 16 * (s.settings.axes.get x).vmax ∧
    (s.settings.axes.get x).homingSpeed ≤ (s.settings.axes.get x).vmax ∧
    (s.setup.readDone = false →
      (s.axes.get x).v16 = 0 ∧ (s.axes.get x).mode = .unsure ∧ (s.axes.get x).bridgeEnable = false ∧
        (s.axes.get x).request ≠ some .slip ∧ s.feed.enabling = .notStarted)

/-- The usage covers the base and stays within the claim on a shared circuit, and each grant lies between hold and run
current (R162, R166, R167). -/
def FeedHolds (s : State) : Prop :=
  s.settings.base ≤ s.settings.floorShare ∧ s.settings.floorShare ≤ s.settings.limit ∧
    (∀ x, (s.settings.axes.get x).holdCurrent ≤ (s.settings.axes.get x).runCurrent) ∧
    s.settings.base ≤ s.feed.usage ∧ s.settings.base ≤ s.feed.claim ∧
    (s.settings.circuit ≠ 0 → s.feed.usage ≤ s.feed.claim) ∧
    ∀ x, (s.settings.axes.get x).holdCurrent ≤ s.feed.grant.get x ∧
      s.feed.grant.get x ≤ (s.settings.axes.get x).runCurrent

/-- The next note time has been reached and its FEED-NOTE has not been placed (R168, R174). -/
def FeedNoteDue (s : State) : Prop :=
  s.feed.noteOwed = true ∨ ∃ n, s.feed.nextNote = some n ∧ n ≤ s.clock.thirds / 3000

/-- No FEED-NOTE is placed. -/
def NoFeedNote (s t : State) : Prop :=
  NothingPlaced s t ∧ t.feed.nextNote = s.feed.nextNote ∧ t.feed.noteOwed = s.feed.noteOwed ∧
    t.feed.enabling = s.feed.enabling ∧ t.stats.feed.notesPlaced = s.stats.feed.notesPlaced

/-- A FEED-NOTE of a claim and two flags is placed, but on circuit 0; its freeing at once may be what bridge enable waited
for (R168, R173; that one the next note time is due stays owed is log 37). -/
def FeedNotePlaced (s t : State) (claim : Nat) (isTripped isSettling : Bool) : Prop :=
  (s.settings.circuit = 0 → NoFeedNote s t) ∧
    (s.settings.circuit ≠ 0 →
      NotePlaced s t .feedNote 255
          ([BitVec.ofNat 8 s.settings.circuit] ++ beBytes 2 claim ++
            [BitVec.ofNat 8 ((if isTripped then 1 else 0) + if isSettling then 2 else 0)]) ∧
        t.feed.nextNote = some (s.clock.thirds / 3000 + s.settings.noteInterval) ∧
        (t.feed.noteOwed = true ↔ FeedNoteDue s) ∧
        t.feed.enabling =
          (if s.ports.a.up = false ∧ s.ports.b.up = false ∧ s.feed.enabling = .waiting then .due
          else s.feed.enabling) ∧
        t.stats.feed.notesPlaced = s.counter s.stats.feed.notesPlaced)

/-! ### Setup Store -/

/-- The setup record is in its canonical form. -/
def StoreHolds (s : State) : Prop :=
  Memory.wf s.store = true

/-- One axis's settings as a page of the record gives them from an address on, each corrected where it is out of range
(R93, R138, R147, R162; park within the travel alone is log 25). -/
def AxisRecordGives (byte : Nat → Byte) (a : Nat) (x : Axis) (st : AxisSettings) : Prop :=
  let n1 := fun i => (byte (a + i)).toNat
  let n2 := fun i => 256 * n1 i + n1 (i + 1)
  let clamp := fun lo hi v => max lo (min hi v)
  st.vmax = max 1 (n1 0) ∧ st.accel = max 1 (n1 1) ∧ st.accelHold = clamp 1 st.accel (n1 2) ∧
    st.softLow = min (n2 3) (travel x) ∧ st.softHigh = max st.softLow (min (n2 5) (travel x)) ∧
    st.park = min (n2 7) (travel x) ∧ st.runCurrent = min (n2 9) 1000 ∧ st.holdCurrent = min (n2 11) st.runCurrent ∧
    st.fullScale = clamp 1 1000 (n2 13) ∧ st.isReversed = decide (n1 15 ≠ 0) ∧ st.brake = decide (n1 16 ≠ 0) ∧
    st.risePos = min (n2 17) (travel x - 1) ∧ st.fallPos = max (st.risePos + 1) (min (n2 19) (travel x)) ∧
    st.slipTolerance = max 1 (n1 21) ∧ st.vaneTolerance = n1 22 ∧ st.homingSpeed = clamp 1 st.vmax (n1 23) ∧
    st.rehomeInDark = decide (n1 24 ≠ 0)

/-- The settings as the record gives them, each corrected where it is out of range (R176, and R38, R93, R110, R139, R162;
the offsets are log 36, and the driver temperature limit below −40 °C log 38). -/
def RecordGives (byte : Nat → Byte) (st : Settings) : Prop :=
  let n1 := fun a => (byte a).toNat
  let n2 := fun a => 256 * n1 a + n1 (a + 1)
  let degrees := fun a : Nat => if n1 a < 128 then (n1 a : Int) else n1 a - 256
  let clamp := fun lo hi v : Nat => max lo (min hi v)
  (st.station = n1 10 ∧ st.groups = byte 11 ∧ st.hopLimit = clamp 1 63 (n1 12) ∧ st.lockCount = clamp 1 7 (n1 13) ∧
    st.beaconInterval = 10 * clamp 5 25 (n1 14) ∧ st.countingDefault = decide (n1 15 ≠ 0) ∧
    st.gatherWindow = clamp 8 64 (n1 16) ∧ st.matchGroup = (if 15 < n1 17 then 0 else n1 17) ∧
    st.matchFloor = min (n2 18) 1000 ∧ st.circuit = (if 15 < n1 20 then 0 else n1 20) ∧ st.deadtime = min (n1 21) 63 ∧
    st.noteInterval = clamp 20 200 (n1 22)) ∧
  (st.standby = min (n2 32) 1000 ∧ st.limit = max st.base (clamp 10 6000 (n2 34)) ∧
    st.floorShare = clamp st.base st.limit (n2 36) ∧ st.tripLevel = n2 38 ∧ st.driverLimit = min (degrees 40) 124 ∧
    st.fullDrive = { red := min (n2 41) 6000, green := min (n2 43) 6000, blue := min (n2 45) 6000,
                     white := min (n2 47) 6000 }) ∧
  (AxisRecordGives byte 64 .pan st.axes.pan ∧ AxisRecordGives byte 96 .tilt st.axes.tilt) ∧
  (st.fullOutput = { red := clamp 1 60000 (n2 128), green := clamp 1 60000 (n2 130), blue := clamp 1 60000 (n2 132),
                     white := clamp 1 60000 (n2 134) } ∧
    st.activeLow = { red := (n1 136).testBit 0, green := (n1 136).testBit 1, blue := (n1 136).testBit 2,
                     white := (n1 136).testBit 3 }) ∧
  st.derating = (List.range 8).map fun i =>
    { threshold := max (-40) (min 125 (degrees (160 + 3 * i))), derate := min (n2 (161 + 3 * i)) 1000 }

/-- A configured station at the read of its record, its settings in force and its clock and Feed Share Unit started, before
its first BEACON and FEED-NOTE are placed: lanes held at park within the soft limits, A, C and R at F, and the claim the base,
or the limit on circuit 0 (R49, R67, R111, R163, R173, R177; the claim on circuit 0 is log 24). -/
def startingWith (s : State) (st : Settings) : State :=
  let parked := fun (a : AxisSettings) => ((max a.softLow (min a.softHigh a.park) : Nat) : Int)
  let park : PerAxis Int := { pan := parked st.axes.pan, tilt := parked st.axes.tilt }
  let dark := fun (full : Nat) =>
    ({ achievable := full, target := full, rendered := full, unpulled := 0, duty := 0, base := 0, frac := 0,
       preload := 0, running := 0 } : EmitterState)
  let claim := if st.circuit = 0 then st.limit else st.base
  { s with
    settings := st, clock := { s.clock with nextBeacon := some (s.clock.thirds / 3000 + st.beaconInterval) },
    play := { State.reset.play with pos := { State.reset.play.pos with start := park, target := park } },
    colour := { State.reset.colour with
      emitters := { red := dark st.fullOutput.red, green := dark st.fullOutput.green, blue := dark st.fullOutput.blue,
                    white := dark st.fullOutput.white },
      nextPeriod := s.colour.nextPeriod },
    feed := Feed.split
      { State.reset.feed with
        started := true, demand := st.base, claim := claim, usage := claim, allowance := st.limit,
        enabling := if st.circuit = 0 then .due else .waiting } st,
    setup := { s.setup with readDone := true, configured := true, counting := st.countingDefault } }

/-- The bytes of a page hold fields of given sizes one after the other, each the value given, in two's complement, where
it fits its size (R182; what a field holds that its value does not fit is free, log 28). -/
def FieldsRead : List Byte → List (Nat × Int) → Prop
  | content, [] => content = []
  | content, (size, v) :: rest =>
    size ≤ content.length ∧
      (-(256 ^ size / 2 : Nat) ≤ v → v < (256 ^ size : Nat) →
        (fieldAt content 0 size : Int) = v % (256 ^ size : Nat)) ∧
      FieldsRead (content.drop size) rest

/-- A flag byte's value, bit 0 first. -/
def flagsOf (bits : List Bool) : Nat :=
  (bits.zipIdx.map fun b => if b.1 then 2 ^ b.2 else 0).sum

/-- What a status page reports, part by part: each field's size in bytes and its value, in the order of R182. -/
def reported (s : State) (page part : Nat) : List (Nat × Int) :=
  let counters := fun (l : List Nat) => l.map fun (n : Nat) => ((2 : Nat), (n : Int))
  let nat := fun (size n : Nat) => (size, (n : Int))
  let lane := fun (t : Timing) => match t.state with
    | .hold => 0
    | .wait .delay => 1
    | .wait .gather => 2
    | .wait .dark => 3
    | .fade => 4
  let mode := fun (m : AxisMode) => match m with
    | .unsure => 0
    | .homing .seek => 16 + 1
    | .homing .backoff => 16 + 2
    | .homing .approach => 16 + 3
    | .homing .set => 16 + 4
    | .homing .returning => 16 + 5
    | .ready => 32
    | .failed => 48
    | .tripped => 64
  let pos := lane s.play.pos.timing
  let int := lane s.play.intensity.timing
  let col := lane s.play.colour.timing
  let g := s.play.gather
  let count := fun (p : PeerRecord → Bool) => nat 1 (s.peers.countP p)
  let onCircuit := fun (r : PeerRecord) =>
    decide (s.settings.circuit ≠ 0) && r.feedPart.any fun x => x.circuit == s.settings.circuit
  let inGroup := fun (r : PeerRecord) =>
    decide (s.settings.matchGroup ≠ 0) && r.matchPart.any fun x => x.group == s.settings.matchGroup
  let axis := fun (a : AxisState) =>
    [nat 1 (mode a.mode), (3, a.pos16 / 16), nat 2 (a.lag.getD 65535),
     nat 1 (flagsOf [a.mode == .tripped, a.slipPending, a.request.isSome, a.request == some .ask, a.request == some .slip,
       a.capture.isSome])] ++
    match a.capture with
    | none => [nat 1 0, nat 1 0, nat 3 0, nat 2 0]
    | some c =>
      [nat 1 ((if c.edge = .fall then 1 else 0) + (if c.negative then 2 else 0) +
          match c.outcome with
          | .corrected => 0
          | .slip => 4
          | .vaneFault => 8
          | .held => 12
          | .phase => 16
          | .ignored => 20),
       nat 1 (mode c.mode), (3, c.microstep), (2, max (-32768) (min 32767 c.deviation))]
  let port := fun (t : PortStats) => counters
    [t.framesIn, t.checkFailures, t.ownEchoes, t.badSize, t.hopLimited, t.relayFull, t.relayFlushed, t.framesRelayed,
     t.ownFramesOut]
  let ofAxis := fun (t : AxisStats) => counters
    [t.bridgeTrips, t.corrections, t.slips, t.vaneFaults, t.homesBegun, t.homesCompleted, t.homingFailures,
     t.homeAsksIgnored]
  let k := s.stats
  if page = 0 ∧ part = 0 then
    [nat 1 (match s.clock.mode with
        | .free => 0
        | .seek => 1
        | .locked => 2
        | .holdover => 3),
     nat 2 s.clock.epoch, nat 4 s.clock.ms, nat 2 s.clock.us, nat 2 s.clock.catchUp,
     nat 1 s.cues.cues.length, nat 2 s.cues.line,
     nat 1 (match s.cues.refusal with
        | none => 0
        | some r => 128 + match r.kind with
          | .badNumber => 0
          | .empty => 1
          | .isProtected => 2
          | .full => 3
          | .lineDown => 4
          | .noCue => 5),
     nat 2 ((s.cues.refusal.map fun r => r.cue).getD 0), nat 1 ((s.cues.refusal.map fun r => r.origin).getD 0),
     nat 2 ((s.play.lastGo.map fun x => x.resolved).getD 0),
     nat 1 (flagsOf [s.play.pendingGo.isSome, s.play.follow.isSome, g.isSome]),
     nat 2 ((s.play.pendingGo.map fun x => x.cueField).getD 0), (4, (s.play.pendingGo.map fun x => x.tick).getD 0),
     nat 2 ((s.play.follow.map fun x => x.source).getD 0), (4, (s.play.follow.map fun x => x.tick).getD 0),
     nat 1 (16 * pos + pos), nat 1 (16 * int + col), nat 1 (16 * col + col), nat 1 (16 * col + 0)]
  else if page = 0 ∧ part = 1 then
    [nat 1 ((g.map fun x => x.group).getD 0), nat 2 ((g.map fun x => x.cue).getD 0),
     (4, (g.map fun x => x.closeTick).getD 0), (4, (g.map fun x => x.ownEnd).getD 0),
     (4, (g.map fun x => x.groupEnd).getD 0), nat 1 ((g.map fun x => x.notes).getD 0),
     nat 2 s.colour.derate, nat 1 (flagsOf [s.colour.outOfMatch, s.colour.announced]), nat 2 s.colour.pAnn,
     (1, s.sense.emitterTemp), (1, s.sense.driverTemp), nat 2 s.sense.feedCurrent, nat 1 s.sense.tripScans,
     nat 1 s.peers.length, count fun r => r.kind == .cueSource, count fun r => r.heard.a && r.heard.b,
     count fun r => r.groups &&& s.settings.groups != 0,
     count fun r => r.beaconPart.any fun b => (b.mode == .locked || b.mode == .holdover) && b.epoch == s.clock.epoch,
     nat 1 ((s.peers.map fun r => r.leastHops).foldl max 0), count onCircuit,
     count fun r => onCircuit r && r.feedPart.any fun x => x.tripped, count inGroup,
     count fun r => inGroup r && r.matchPart.any fun x => x.pulled]
  else if page = 0 then
    axis s.axes.pan ++ axis s.axes.tilt ++
      [nat 1 s.settings.circuit, nat 2 s.feed.demand, nat 2 s.feed.claim, nat 2 s.feed.usage, nat 2 s.feed.allowance,
       nat 1 (flagsOf [s.feed.settling.isSome, s.feed.tripEnd.isSome, s.feed.driverHot]), nat 2 s.feed.pull,
       nat 2 s.feed.grant.pan, nat 2 s.feed.grant.tilt]
  else if page = 1 ∧ part = 0 then
    [nat 1 (flagsOf [s.ports.a.up, s.ports.b.up]), nat 2 s.longestWait] ++ port k.ports.a ++ port k.ports.b
  else if page = 1 then
    nat 1 (flagsOf [s.setup.counting]) :: counters
      [k.clock.taken, k.clock.unusable, k.clock.olderEpoch, k.clock.adoptions, k.clock.steps, k.clock.holdovers,
       k.clock.losses, k.peers.tableFull, k.peers.replaced, k.peers.agedOut, k.setup.written, k.setup.ignored]
  else if part = 0 then
    counters
      [k.cues.inserted, k.cues.replaced, k.cues.clamped, k.cues.removed, k.cues.refusals, k.play.gosTaken,
       k.play.lateGos, k.play.unsynced, k.play.duplicates, k.play.pendingReplaced, k.play.followsTaken,
       k.play.releasesTaken, k.play.rebases, k.play.gathersCancelledByRebase, k.colour.pullAnnouncements,
       k.colour.outOfMatchEntries, k.colour.ceilingCuts, k.colour.matchNotesPlaced]
  else if part = 1 then
    counters
      [k.plan.stretched, k.plan.gathersOpened, k.plan.gathersClosed, k.plan.gathersLengthened, k.plan.gathersCapped,
       k.plan.gathersCancelled, k.plan.notesMatched, k.plan.earlyNotes, k.plan.earlyNotesLost, k.plan.lateNotes,
       k.feed.raises, k.feed.raisesCut, k.feed.lowers, k.feed.feedTrips, k.feed.notesPlaced, k.feed.driverHotEntries]
  else ofAxis k.axes.pan ++ ofAxis k.axes.tilt

/-- An unconfigured station is quiet: defaults in force, clock FREE, nothing held, placed or started, both axes UNSURE
with their START requests waiting and their bridges off (R179); and before the read of the record no station is
configured (R177). -/
def QuietWhenUnconfigured (s : State) : Prop :=
  (s.setup.readDone = false → s.setup.configured = false) ∧
  (s.setup.configured = false →
    s.settings = Settings.default ∧ s.clock.mode = .free ∧ s.clock.nextBeacon = none ∧ s.peers = [] ∧
      s.cues = CueStore.initial ∧ s.play = Playback.initial Settings.default ∧
      (∀ c, (s.outbox.get c).entry = none) ∧ s.colour.nextMatch = none ∧ s.colour.noteOwed = false ∧
      s.feed.started = false ∧ s.feed.noteOwed = false ∧
      s.feed.enabling = .notStarted ∧ s.feed.nextNote = none ∧ s.feed.tripEnd = none ∧ s.feed.settling = none ∧
      ∀ x, (s.axes.get x).mode = .unsure ∧ (s.axes.get x).bridgeEnable = false ∧
        (s.axes.get x).request = some .start ∧ (s.axes.get x).v16 = 0)

end Sys2Proof.Machine
end

