-- ==== Sys2Proof/Certificates/Slice0/Obligations.lean ====
section
/-! DEFINITION. The statements about the model, for the provers. -/

open Sys2Proof Sys2Proof.Machine

/-! ### Steps, resets and the queue -/

/-- The command at the front of the queue is taken from it and run on the rest. -/
def Obligations.StepRunsFrontCommand : Prop :=
  ∀ (s : State) (c : Instr) (rest : List Instr),
    s.pending = c :: rest → step s = exec c { s with pending := rest }

/-- With nothing due on an empty queue a third of a µs passes; each whole µs show time gains 1 µs, and a multiple of 4 ms
with 0 µs is marked to every consumer of lanes, behind the boundaries it has yet to take (log 16). The third of a µs is the model's choice (log 1). -/
def Obligations.IdleStepPassesTime : Prop :=
  ∀ s : State, s.pending = [] → s.pins.resetHeld = false → s.dueCommand = none →
    (¬ 3 ∣ s.clock.thirds + 1 →
      step s = .next { s with clock := { s.clock with thirds := s.clock.thirds + 1 } }) ∧
    (3 ∣ s.clock.thirds + 1 → s.clock.ms * 1000 + s.clock.us < 4294967295 * 1000 + 999 →
      step s = .next
        { s with
          clock :=
            { s.clock with
              thirds := s.clock.thirds + 1, ms := (s.clock.ms * 1000 + s.clock.us + 1) / 1000,
              us := (s.clock.ms * 1000 + s.clock.us + 1) % 1000 },
          marks :=
            if 4000 ∣ s.clock.ms * 1000 + s.clock.us + 1 then
              let b : Int := ((s.clock.ms * 1000 + s.clock.us + 1) / 1000 : Nat)
              { epoch := s.clock.epoch, playback := s.marks.playback ++ [b],
                axes := { pan := s.marks.axes.pan ++ [b], tilt := s.marks.axes.tilt ++ [b] },
                colour := s.marks.colour ++ [b], feed := s.marks.feed ++ [b] }
            else s.marks })

/-- The reset line, power-on and an accepted RESTART each leave every block at its reset values; the setup record and the
waiting commands are kept. That the pins stand as they stood is the model's choice (log 5), as is what the reset line's own
pin holds (log 29). -/
def Obligations.DeviceResets : Prop :=
  (∀ s : State, exec .resetLine s = .next
    { State.reset with store := s.store, pins := { s.pins with resetHeld := false }, pending := s.pending }) ∧
  (∀ s : State, exec .powerOn s = .next
    { State.reset with store := s.store, pins := s.pins, pending := s.pending }) ∧
  (∀ s : State, exec .resetLineHeld s = .next
    { State.reset with store := s.store, pins := { s.pins with resetHeld := true }, pending := s.pending }) ∧
  (∀ (s : State) (f : Frame), Taken s .restart f → exec (.restart f) s = .next
    { State.reset with store := s.store, pins := s.pins, pending := s.pending }) ∧
  (∀ (s : State) (f : Frame), s.setup.readDone = true → s.setup.configured = false → s.settings.station = 0 →
    1 ≤ f.origin.toNat → f.origin.toNat ≤ 250 → f.dest.toNat = 255 → f.payload = [] →
    exec (.restart f) s = .next { State.reset with store := s.store, pins := s.pins, pending := s.pending })

/-- What a device reset leaves, block by block, with the setup defaults in force. The registers of which the spec gives no
value are left as the model has them: the end of the last stop bit (log 32), the last slew (log 15), the requested move time
(log 17), the phases of the PWM timers (log 10), the directions of the coils (log 22), the phase entry and the reference
capture (log 21), and what the model keeps beside the spec's own registers. -/
def Obligations.ResetValues : Prop :=
  let s := State.reset
  let held : Timing := { state := .hold, startTick := 0, endTick := some 0 }
  let park : PerAxis Int := { pan := 27000, tilt := 13500 }
  let none4 : PerEmitter Nat := { red := 0, green := 0, blue := 0, white := 0 }
  s.clock =
    { thirds := 0, mode := .free, epoch := 0, ms := 0, us := 0, consecutive := 0, disagreement := 0, catchUp := 0,
      lastBeacon := none, holdoverEntry := none, nextBeacon := none, slewedAt := s.clock.slewedAt } ∧
  (s.marks.playback = [] ∧ (∀ x, s.marks.axes.get x = []) ∧ s.marks.colour = [] ∧ s.marks.feed = []) ∧
  (∀ p, s.ports.get p =
    { up := false, lastChar := 0,
      asm := { state := .idle, bytes := [], count := 0, framingError := false, hopStopped := false,
               lastEnd := (s.ports.get p).asm.lastEnd },
      fifo := { readPtr := 0, committed := [], copy := none },
      tx := { current := none, lastEnded := none, sentAhead := false } }) ∧
  (∀ c, s.outbox.get c = { entry := none, lastFreed := none }) ∧ s.longestWait = 0 ∧ s.peers = [] ∧
  s.cues = { cues := [], line := 0, refusal := none } ∧
  s.play =
    { pos := { timing := held, start := park, target := park, plan := some 0, moveMs := s.play.pos.moveMs },
      intensity := { timing := held, start := 0, target := 0 },
      colour := { timing := held, start := none4, target := none4 }, pendingGo := none, lastGo := none, follow := none,
      lastRelease := none, gather := none, finished := none, early := [] } ∧
  (s.colour.derate = 1000 ∧ s.colour.announced = false ∧ s.colour.pulledSince = none ∧ s.colour.unpulledSince = none ∧
    s.colour.pAnn = 1000 ∧ s.colour.outOfMatch = false ∧ s.colour.lastAnnounced = none ∧ s.colour.nextMatch = none ∧
    ∀ e, s.colour.emitters.get e =
      { achievable := 20000, target := 20000, rendered := 20000, unpulled := 0, duty := 0, base := 0, frac := 0,
        preload := 0, running := 0 }) ∧
  (∀ x,
    let a := s.axes.get x
    a = { mode := .unsure, pos16 := 0, v16 := 0, output := 0, walk := { origin := 0, target := 0, walked := 100 },
          current := none, running := false, lag := none, bridgeEnable := false, live := false, coilA := a.coilA,
          coilB := a.coilB, capture := none, pass := none, slipPending := false, request := some .start,
          phaseEntry := a.phaseEntry, reference := a.reference } ∧
      a.coilA.preload.duty = 0 ∧ a.coilA.running.duty = 0 ∧ a.coilB.preload.duty = 0 ∧ a.coilB.running.duty = 0) ∧
  s.sense = { emitterTemp := 0, driverTemp := 0, feedCurrent := 0, tripScans := 0, nextScan := 5 } ∧
  s.feed =
    { started := false, demand := 150, emitterDemand := 0, counted := s.feed.counted, claim := 150, usage := 150,
      allowance := 1000, settling := none, belowSince := none, tripEnd := none, pull := 1000,
      grant := { pan := 40, tilt := 40 }, driverHot := false, nextNote := none, noteOwed := s.feed.noteOwed,
      enabling := s.feed.enabling } ∧
  s.setup =
    { readDone := false, configured := false, counting := true, nextPart0 := 0, nextPart1 := 0, nextPart2 := 0 } ∧
  s.stats = Stats.zero ∧
  s.settings =
    { station := 0, groups := 0, hopLimit := 32, lockCount := 3, beaconInterval := 100, countingDefault := true,
      gatherWindow := 24, matchGroup := 0, matchFloor := 500, circuit := 0, deadtime := 20, noteInterval := 50,
      standby := 70, limit := 1000, floorShare := 200, tripLevel := 4000, driverLimit := 100,
      fullDrive := { red := 300, green := 300, blue := 300, white := 300 }, axes := s.settings.axes,
      fullOutput := { red := 20000, green := 20000, blue := 20000, white := 20000 },
      activeLow := { red := false, green := false, blue := false, white := false },
      derating := List.replicate 8 { threshold := 125, derate := 1000 } } ∧
  ∀ x, s.settings.axes.get x =
    { vmax := 120, accel := 96, accelHold := 24, softLow := 0,
      softHigh := (match x with
        | .pan => 54000
        | .tilt => 27000),
      park := (match x with
        | .pan => 27000
        | .tilt => 13500),
      runCurrent := 120, holdCurrent := 40, fullScale := 200, isReversed := false, brake := false, risePos := 1000,
      fallPos := 1600, slipTolerance := 8, vaneTolerance := 6, homingSpeed := 40, rehomeInDark := true }

/-! ### Link Interface -/

/-- A character restarts the port's silence time and is counted in the frame in progress. IDLE takes a lead or discards,
HEADER and BODY store it, a character beyond the declared count ends the frame and its relay copy, DISCARD stores nothing.
Before the setup record has been read nothing is taken. -/
def Obligations.CharacterTaken : Prop :=
  ∀ (s : State) (p : Port) (c : Byte) (stopBit : Bool),
    let x := s.ports.get p
    let q := s.ports.get (otherPort p)
    let a := { x.asm with
      count := x.asm.count + 1, framingError := x.asm.framingError || !stopBit, lastEnd := s.clock.thirds }
    let stored := { a with bytes := a.bytes ++ [c] }
    (s.setup.readDone = false → exec (.characterReceived p c stopBit) s = .next s) ∧
    (s.setup.readDone = true → x.asm.state = .idle →
      exec (.characterReceived p c stopBit) s = .next
        { s with
          ports := s.ports.set p
            { x with
              lastChar := s.clock.thirds / 3000,
              asm := if c = 0xC5 then { stored with state := .header } else { a with state := .discard } } }) ∧
    (s.setup.readDone = true → x.asm.state = .header → x.asm.bytes.length < 6 →
      exec (.characterReceived p c stopBit) s = .next
        { s with ports := s.ports.set p { x with lastChar := s.clock.thirds / 3000, asm := stored } }) ∧
    (s.setup.readDone = true → x.asm.state = .body → x.asm.bytes.length < 9 + (x.asm.bytes.getD 6 0).toNat →
      exec (.characterReceived p c stopBit) s = .next
        { s with
          ports := (s.ports.set p { x with lastChar := s.clock.thirds / 3000, asm := stored }).set (otherPort p)
            { q with fifo := { q.fifo with copy := q.fifo.copy.map fun bs => bs ++ [c] } } }) ∧
    (s.setup.readDone = true → x.asm.state = .body → 9 + (x.asm.bytes.getD 6 0).toNat ≤ x.asm.bytes.length →
      exec (.characterReceived p c stopBit) s = .next
        { s with
          ports :=
            (s.ports.set p { x with lastChar := s.clock.thirds / 3000, asm := { a with state := .discard } }).set
              (otherPort p) { q with fifo := { q.fifo with copy := none } } }) ∧
    (s.setup.readDone = true → x.asm.state = .discard →
      exec (.characterReceived p c stopBit) s = .next
        { s with ports := s.ports.set p { x with lastChar := s.clock.thirds / 3000, asm := a } })

/-- The seventh header character: a length above 48 is discarded; otherwise the tests of the relay decision in their
order, and with room for the whole declared length the copy is opened with the seven header bytes. -/
def Obligations.HeaderPoint : Prop :=
  ∀ (s : State) (p : Port) (len : Byte) (stopBit : Bool),
    let x := s.ports.get p
    let q := s.ports.get (otherPort p)
    let a := { x.asm with
      count := x.asm.count + 1, framingError := x.asm.framingError || !stopBit, lastEnd := s.clock.thirds,
      bytes := x.asm.bytes ++ [len] }
    let at' := fun (b : Assembler) =>
      { s with ports := s.ports.set p { x with lastChar := s.clock.thirds / 3000, asm := b } }
    let body := { a with state := .body }
    let own := s.settings.station ≠ 0 ∧
      ((x.asm.bytes.getD 2 0).toNat = s.settings.station ∨ (x.asm.bytes.getD 3 0).toNat = s.settings.station)
    s.setup.readDone = true → x.asm.state = .header → x.asm.bytes.length = 6 →
      exec (.characterReceived p len stopBit) s = .next
        (if 48 < len.toNat then at' { a with state := .discard }
        else if own then at' body
        else if s.settings.hopLimit ≤ (x.asm.bytes.getD 5 0).toNat + 1 then at' { body with hopStopped := true }
        else if q.up = false then at' body
        else if 512 - (q.fifo.committed.map fun r => r.bytes.length).sum < 9 + len.toNat then
          (at' body).tallyPort p fun t => { t with relayFull := min (t.relayFull + 1) 65535 }
        else
          { s with
            ports := (s.ports.set p { x with lastChar := s.clock.thirds / 3000, asm := body }).set (otherPort p)
              { q with fifo := { q.fifo with copy := some (x.asm.bytes ++ [len]) } } })

/-- A frame that fails at its close is counted in check failures, and an own echo in own echoes; neither is consumed, and
the relay copy is rolled back. Only the own echo brings its port UP. -/
def Obligations.FrameNotConsumed : Prop :=
  ∀ (s : State) (p : Port), Closes s p →
    let x := s.ports.get p
    let q := s.ports.get (otherPort p)
    let idle : Assembler :=
      { state := .idle, bytes := [], count := 0, framingError := false, hopStopped := false, lastEnd := x.asm.lastEnd }
    (¬ Passes x.asm →
      exec (.frameClose p) s = .next
        (({ s with
            ports := (s.ports.set p { x with asm := idle }).set (otherPort p)
              { q with fifo := { q.fifo with copy := none } } } : State).tallyPort p
          fun t => { t with checkFailures := min (t.checkFailures + 1) 65535 })) ∧
    (Passes x.asm → s.settings.station ≠ 0 → (x.asm.bytes.getD 2 0).toNat = s.settings.station →
      exec (.frameClose p) s = .next
        (({ s with
            ports := (s.ports.set p { x with asm := idle, up := true }).set (otherPort p)
              { q with fifo := { q.fifo with copy := none } } } : State).tallyPort p
          fun t => { t with ownEchoes := min (t.ownEchoes + 1) 65535 }))

/-- A frame that passes its check and is no own echo brings its port UP and has its relay copy committed and a stop by the
hop limit counted; then it is handed to the consumer of its kind, and a frame of an unknown kind to none. That UP, the relay
copy and that count come before the consumption, for a RESTART too, and that the consumer's own rule decides the frames in
count, are the model's choices (logs 33, 34 and 4). -/
def Obligations.FrameHandedOn : Prop :=
  ∀ (s : State) (p : Port), Closes s p → Passes (s.ports.get p).asm →
    (s.settings.station ≠ 0 → ((s.ports.get p).asm.bytes.getD 2 0).toNat ≠ s.settings.station) →
    let x := s.ports.get p
    let q := s.ports.get (otherPort p)
    let idle : Assembler :=
      { state := .idle, bytes := [], count := 0, framingError := false, hopStopped := false, lastEnd := x.asm.lastEnd }
    let fifo : RelayFifo :=
      match q.fifo.copy with
      | some bs => { q.fifo with committed := q.fifo.committed ++ [{ bytes := bs, ended := x.asm.lastEnd }], copy := none }
      | none => q.fifo
    let s1 : State := { s with
      ports := (s.ports.set p { x with asm := idle, up := true }).set (otherPort p) { q with fifo := fifo } }
    let s2 :=
      if x.asm.hopStopped then s1.tallyPort p fun t => { t with hopLimited := min (t.hopLimited + 1) 65535 } else s1
    let f : Frame :=
      { port := p, origin := x.asm.bytes.getD 2 0, dest := x.asm.bytes.getD 3 0, groups := x.asm.bytes.getD 4 0,
        hops := x.asm.bytes.getD 5 0, payload := (x.asm.bytes.take (x.asm.bytes.length - 2)).drop 7,
        ended := x.asm.lastEnd }
    exec (.frameClose p) s =
      match kindOfCode (x.asm.bytes.getD 1 0) with
      | some k => exec (commandOf k f) s2
      | none => .next s2

/-- A port silent for 250 ms goes DOWN: the copy toward it is abandoned, its committed frames are discarded and counted but
for one in transmission, and it leaves the waited set of every entry and the send set of all but a BEACON; an entry whose
waited set that covers is freed, its wait raising the longest wait, and that of the first FEED-NOTE is what bridge enable
waits for. The read pointer stays where it is by the model's choice (log 20), and the longest wait rises while counting is
OFF (log 14). -/
def Obligations.PortGoesDown : Prop :=
  ∀ (s : State) (p : Port),
    let x := s.ports.get p
    let kept := if x.tx.current.any fun t => t.source == .relayed then x.fifo.committed.take 1 else []
    let covered := fun (e : Entry) =>
      ((e.waited.set p false).a = true → e.sent.a = true) ∧ ((e.waited.set p false).b = true → e.sent.b = true)
    let waits := fun (n : Nat) =>
      ∃ c e, (s.outbox.get c).entry = some e ∧ covered e ∧ n = s.clock.thirds / 3000 - e.entryTime
    x.up = true → x.lastChar + 250 ≤ s.clock.thirds / 3000 →
    ∃ t, exec (.portSilenceTimeout p) s = .next t ∧
      t.ports = s.ports.set p { x with up := false, fifo := { x.fifo with committed := kept, copy := none } } ∧
      (∀ c, t.outbox.get c =
        match (s.outbox.get c).entry with
        | none => s.outbox.get c
        | some e =>
          let waited := e.waited.set p false
          if (waited.a = true → e.sent.a = true) ∧ (waited.b = true → e.sent.b = true) then
            { entry := none, lastFreed := some (s.clock.thirds / 3000) }
          else
            { entry := some { e with waited := waited, send := if c = .beacon then e.send else e.send.set p false },
              lastFreed := (s.outbox.get c).lastFreed }) ∧
      t.stats = (s.tallyPort p fun c =>
        { c with relayFlushed := min (c.relayFlushed + (x.fifo.committed.length - kept.length)) 65535 }).stats ∧
      (s.longestWait ≤ t.longestWait ∧ (∀ n, waits n → n ≤ t.longestWait) ∧
        (t.longestWait = s.longestWait ∨ waits t.longestWait)) ∧
      (s.feed.enabling = .waiting → (∃ e, s.outbox.feedNote.entry = some e ∧ covered e) →
        t.feed = { s.feed with enabling := .due }) ∧
      ((s.feed.enabling ≠ .waiting ∨ ∀ e, s.outbox.feedNote.entry = some e → ¬ covered e) → t.feed = s.feed) ∧
      t = { s with ports := t.ports, outbox := t.outbox, longestWait := t.longestWait, stats := t.stats, feed := t.feed }

/-- A transmitter with an idle line takes the oldest committed relayed frame, unless some own entry has waited 2 ms and its
last frame was no own frame sent ahead; then, or with no relayed frame, it takes the arbiter's choice, by priority with the
throttled classes last, and its bytes are filled at that instant. With neither it sends nothing. -/
def Obligations.ChoicePoint : Prop :=
  ∀ (s : State) (p : Port), LineIdle s p →
    let x := s.ports.get p
    (∀ r rest, x.fifo.committed = r :: rest → (x.tx.sentAhead = true ∨ ¬ OwnWaits s p) →
      exec (.choicePoint p) s = .next
        { s with
          ports := s.ports.set p
            { x with
              tx := { x.tx with
                current := some { source := .relayed, bytes := relayEdit r s.clock.thirds, started := s.clock.thirds },
                sentAhead := false } } }) ∧
    (∀ c e, (x.fifo.committed = [] ∨ (x.tx.sentAhead = false ∧ OwnWaits s p)) → Arbitrated s p c →
      (s.outbox.get c).entry = some e →
      ∃ out, OwnBytes s c e out ∧ exec (.choicePoint p) s = .next
        { s with
          ports := s.ports.set p
            { x with
              tx := { x.tx with
                current := some { source := .own c true, bytes := out, started := s.clock.thirds },
                sentAhead := decide (x.fifo.committed ≠ []) } } }) ∧
    (x.fifo.committed = [] → (∀ c, ¬ Owes s p c) → exec (.choicePoint p) s = .next s) ∧
    ((∃ c, Owes s p c) → ∃ c, Arbitrated s p c)

/-- A relayed frame leaves with its hops one greater, a BEACON's correction raised by residence and serialization and held
at 16,777,215, a check over the edited bytes, and every other byte as it arrived. That a frame of kind 0x01 which is not 23
characters long leaves without a correction is the model's choice (log 12). -/
def Obligations.RelayedBytes : Prop :=
  ∀ (r : RelayFrame) (now : Nat), r.bytes.length = 9 + (r.bytes.getD 6 0).toNat → r.bytes.getD 0 0 = 0xC5 →
    let out := relayEdit r now
    let isBeacon := r.bytes.getD 1 0 = 0x01 ∧ r.bytes.length = 23
    out.length = r.bytes.length ∧ out.getD 5 0 = r.bytes.getD 5 0 + 1 ∧
      (∀ i, i + 2 < r.bytes.length → i ≠ 5 → ¬ (isBeacon ∧ 17 ≤ i ∧ i < 20) → out.getD i 0 = r.bytes.getD i 0) ∧
      (isBeacon →
        fieldAt out 17 3 = min (fieldAt r.bytes 17 3 + (now - r.ended) / 3 + 77) 16777215) ∧
      fieldAt out (out.length - 2) 2 = (crc ((out.take (out.length - 2)).drop 1)).toNat

/-- A transmission puts its characters on the line back to back, each a start bit, eight data bits with the least significant
first, and a stop bit, a third of a µs each, and leaves it idle after the last. A relayed frame's transmission ends: the read
pointer moves past it. An own frame's ends: the port joins the sent set of the entry it still presents, which is freed once that
covers its waited set, its wait raising the longest wait; a replaced entry's old content enters nothing. That it is not counted
in own frames out, and that the longest wait rises while counting is OFF, are the model's choices (logs 13 and 14), and that the
bits are a function of the state is log 31. -/
def Obligations.TransmissionEnds : Prop :=
  (∀ (s : State) (p : Port),
    let tx := (s.ports.get p).tx
    (tx.current = none → s.transmitBit p = .idle) ∧
    ∀ t, tx.current = some t →
      (t.started + 10 * t.bytes.length ≤ s.clock.thirds → s.transmitBit p = .idle) ∧
      ∀ (k : Nat) (c : Byte), t.bytes[k]? = some c →
        let began := t.started + 10 * k
        (s.clock.thirds = began → s.transmitBit p = .start) ∧
        (∀ i, i < 8 → s.clock.thirds = began + 1 + i → s.transmitBit p = .data (c.getLsbD i)) ∧
        (s.clock.thirds = began + 9 → s.transmitBit p = .stop)) ∧
  ∀ (s : State) (p : Port) (t : Transmission),
    let x := s.ports.get p
    let ended := t.started + 10 * t.bytes.length
    let tx : Transmitter := { x.tx with current := none, lastEnded := some ended }
    let up := s.clock.thirds / 3000
    x.tx.current = some t → ended ≤ s.clock.thirds →
    (∀ r rest, t.source = .relayed → x.fifo.committed = r :: rest →
      exec (.relayedFrameSent p) s = .next
        (({ s with
            ports := s.ports.set p
              { x with
                tx := tx,
                fifo := { x.fifo with
                  readPtr := (x.fifo.readPtr + r.bytes.length) % 512, committed := rest } } } : State).tallyPort p
          fun c => { c with framesRelayed := min (c.framesRelayed + 1) 65535 })) ∧
    (∀ c, t.source = .own c false →
      exec (.ownFrameSent p) s = .next { s with ports := s.ports.set p { x with tx := tx } }) ∧
    (∀ c e, t.source = .own c true → (s.outbox.get c).entry = some e →
      let sent := e.sent.set p true
      let s1 := ({ s with ports := s.ports.set p { x with tx := tx } } : State).tallyPort p
        fun k => { k with ownFramesOut := min (k.ownFramesOut + 1) 65535 }
      exec (.ownFrameSent p) s = .next
        (if (e.waited.a = true → sent.a = true) ∧ (e.waited.b = true → sent.b = true) then
          { s1 with
            outbox := s.outbox.set c { entry := none, lastFreed := some up },
            longestWait := max s.longestWait (up - e.entryTime),
            feed :=
              if c = .feedNote ∧ s.feed.enabling = .waiting then { s.feed with enabling := .due } else s.feed }
        else
          { s1 with outbox := s.outbox.set c { s.outbox.get c with entry := some { e with sent := sent } } }))

/-- Of the fourteen frame commands: a frame that is not accepted changes nothing, an accepted one of the wrong size is
counted in bad size and no more, and a STATUS-REPLY of the right size is counted in frames in and dropped. The table of kinds
gives each its code and the shortest and longest payload it may have, and no other code a kind. -/
def Obligations.FramesNotHandedOn : Prop :=
  (∀ (s : State) (k : FrameKind) (f : Frame), s.setup.configured = true → ¬ Addressed s f →
    exec (commandOf k f) s = .next s) ∧
  (∀ (s : State) (k : FrameKind) (f : Frame), Addressed s f → ¬ RightSize k f →
    exec (commandOf k f) s = .next (s.tallyPort f.port fun t => { t with badSize := min (t.badSize + 1) 65535 })) ∧
  (∀ (s : State) (f : Frame), Taken s .statusReply f → exec (.statusReply f) s = .next (s.heard f)) ∧
  (∀ code k, kindOfCode code = some k ↔ ∃ row ∈ kindTable, row.kind = k ∧ row.code = code) ∧
  (∀ k n, (k.lengths.1 ≤ n ∧ n ≤ k.lengths.2) ↔
    ∃ row ∈ kindTable, row.kind = k ∧ row.shortest ≤ n ∧ n ≤ row.longest)

/-- A step keeps each relay FIFO within its 512 bytes, with room for the frame being copied into it, and each assembler's
stored characters as its state says. -/
def Obligations.RelayFifosNeverOverflow : Prop :=
  KeptByStep FifosHold

/-! ### Show Clock -/

/-- A BEACON with a show µs field above 999 or a saturated correction is unusable, and a usable one of a lower epoch is
ignored: neither changes the clock. -/
def Obligations.BeaconIgnored : Prop :=
  ∀ (s : State) (f : Frame), Taken s .beacon f →
    let us := fieldAt f.payload 8 2
    let correction := fieldAt f.payload 10 3
    let epoch := fieldAt f.payload 2 2
    ((999 < us ∨ correction = 16777215) →
      ∃ t, exec (.beacon f) s = .next t ∧ t.stats.clock = { s.stats.clock with unusable := s.counter s.stats.clock.unusable } ∧
        t = { s with peers := t.peers, stats := t.stats }) ∧
    (us ≤ 999 → correction ≠ 16777215 → epoch < s.clock.epoch →
      ∃ t, exec (.beacon f) s = .next t ∧
        t.stats.clock = { s.stats.clock with olderEpoch := s.counter s.stats.clock.olderEpoch } ∧
        t = { s with peers := t.peers, stats := t.stats })

/-- A beacon of a higher epoch is adopted: epoch, show time, clock state, counts, and every tick the Playback Unit holds
moved by Δ, lanes in HOLD apart; the early notes and the gather records are given up, and the lanes of an open gather make a
plain move from now. The elapsed time is the difference of the local timebase's counts (log 9), and a boundary not yet taken is
carried into the new epoch by the model's reading (log 16). -/
def Obligations.EpochAdopted : Prop :=
  ∀ (s : State) (f : Frame), Taken s .beacon f →
    let us := fieldAt f.payload 8 2
    let epoch := fieldAt f.payload 2 2
    let estimate := fieldAt f.payload 4 4 * 1000 + us + fieldAt f.payload 10 3 + 77
    let time := min (estimate + (s.clock.thirds / 3 - f.ended / 3)) (4294967295 * 1000 + 999)
    let d := roundDiv ((time : Int) - (s.clock.ms * 1000 + s.clock.us : Nat)) 1000
    let now : Int := (time / 1000 : Nat)
    let shift := fun (x : Timing) =>
      if x.state = .hold then x else { x with startTick := x.startTick + d, endTick := x.endTick.map (· + d) }
    let play := s.stats.play
    us ≤ 999 → fieldAt f.payload 10 3 ≠ 16777215 → s.clock.epoch < epoch →
    ∃ t, exec (.beacon f) s = .next t ∧
      t.clock =
        { s.clock with
          epoch := epoch, ms := time / 1000, us := time % 1000,
          mode := if s.settings.lockCount = 1 then .locked else .seek, consecutive := 1, disagreement := 0, catchUp := 0,
          holdoverEntry := none, lastBeacon := some (s.clock.thirds / 3000) } ∧
      t.play =
        { pos := t.play.pos,
          intensity := { s.play.intensity with timing := shift s.play.intensity.timing },
          colour := { s.play.colour with timing := shift s.play.colour.timing },
          pendingGo := s.play.pendingGo.map fun g => { g with tick := g.tick + d },
          lastGo := s.play.lastGo.map fun g => { g with tick := g.tick + d },
          follow := s.play.follow.map fun g => { g with tick := g.tick + d },
          lastRelease := s.play.lastRelease.map (· + d), gather := none, finished := none, early := [] } ∧
      (s.play.gather = none → t.play.pos = { s.play.pos with timing := shift s.play.pos.timing }) ∧
      (s.play.gather ≠ none →
        PlainMove s s.play.pos.start s.play.pos.target s.play.pos.moveMs now now t.play.pos) ∧
      t.marks =
        { epoch := epoch, playback := s.marks.playback.map (· + d),
          axes := { pan := s.marks.axes.pan.map (· + d), tilt := s.marks.axes.tilt.map (· + d) },
          colour := s.marks.colour.map (· + d), feed := s.marks.feed.map (· + d) } ∧
      t.stats.clock = { s.stats.clock with
        taken := s.counter s.stats.clock.taken, adoptions := s.counter s.stats.clock.adoptions } ∧
      t.stats.play = { play with
        rebases := s.counter play.rebases,
        gathersCancelledByRebase :=
          if s.play.gather = none then play.gathersCancelledByRebase else s.counter play.gathersCancelledByRebase } ∧
      t = { s with clock := t.clock, marks := t.marks, play := t.play, peers := t.peers, stats := t.stats }

/-- A taken beacon of the own epoch, by clock state and class of its offset: FREE steps forward or not and counts 1; SEEK
steps or counts on and locks at N; LOCKED and HOLDOVER count far-ahead beacons, raise catch-up, or change nothing, and
re-seek at N. Each is counted as taken, and each step as a step. The elapsed time is the difference of the local
timebase's counts (log 9). -/
def Obligations.BeaconOfOwnEpoch : Prop :=
  ∀ (s : State) (f : Frame), Taken s .beacon f →
    let us := fieldAt f.payload 8 2
    let estimate := fieldAt f.payload 4 4 * 1000 + us + fieldAt f.payload 10 3 + 77
    let reading : Int := (s.clock.ms * 1000 + s.clock.us : Nat) - (s.clock.thirds / 3 - f.ended / 3 : Nat)
    let o : Int := estimate - reading
    let n := s.settings.lockCount
    let c : Clock := { s.clock with lastBeacon := some (s.clock.thirds / 3000) }
    let time := min (s.clock.ms * 1000 + s.clock.us + o.toNat) (4294967295 * 1000 + 999)
    let stepped : Clock := { c with ms := time / 1000, us := time % 1000, catchUp := 0 }
    let first : ClockMode := if n = 1 then .locked else .seek
    let steps := (s.clock.mode = .free ∧ 0 < o) ∨ (s.clock.mode = .seek ∧ 2000 < o) ∨
      ((s.clock.mode = .locked ∨ s.clock.mode = .holdover) ∧ 2000 < o ∧ n ≤ s.clock.disagreement + 1)
    us ≤ 999 → fieldAt f.payload 10 3 ≠ 16777215 → fieldAt f.payload 2 2 = s.clock.epoch →
    ∃ t, exec (.beacon f) s = .next t ∧ t = { s with clock := t.clock, peers := t.peers, stats := t.stats } ∧
      (steps → t.stats.clock = { s.stats.clock with
        taken := s.counter s.stats.clock.taken, steps := s.counter s.stats.clock.steps }) ∧
      (¬ steps → t.stats.clock = { s.stats.clock with taken := s.counter s.stats.clock.taken }) ∧
      (s.clock.mode = .free →
        t.clock = if 0 < o then { stepped with mode := first, consecutive := 1 }
          else { c with mode := first, consecutive := 1 }) ∧
      (s.clock.mode = .seek → 2000 < o → 2 ≤ n → t.clock = { stepped with consecutive := 1 }) ∧
      (s.clock.mode = .seek → 2000 < o → n = 1 →
        t.clock = { stepped with mode := .locked, consecutive := 1, disagreement := 0 }) ∧
      (s.clock.mode = .seek → -2000 ≤ o → o ≤ 2000 → s.clock.consecutive + 1 < n →
        t.clock = { c with consecutive := s.clock.consecutive + 1 }) ∧
      (s.clock.mode = .seek → -2000 ≤ o → o ≤ 2000 → s.clock.consecutive + 1 = n →
        t.clock = { c with mode := .locked, consecutive := n, disagreement := 0, catchUp := 0 }) ∧
      (s.clock.mode = .seek → o < -2000 → t.clock = c) ∧
      (s.clock.mode = .locked ∨ s.clock.mode = .holdover →
        (2000 < o → s.clock.disagreement + 1 < n →
          t.clock = { c with
            mode := .locked, holdoverEntry := none, disagreement := s.clock.disagreement + 1 }) ∧
        (2000 < o → s.clock.disagreement + 1 = n →
          t.clock = { stepped with mode := first, holdoverEntry := none, consecutive := 1, disagreement := 0 }) ∧
        (1 ≤ o → o ≤ 2000 →
          t.clock = { c with
            mode := .locked, holdoverEntry := none, disagreement := 0, catchUp := max s.clock.catchUp o.toNat }) ∧
        (o ≤ 0 → t.clock = { c with mode := .locked, holdoverEntry := none }))

/-- The clock's own timers: a slew gains 1 µs, or holds the largest show time, and spends 1 of catch-up; LOCKED falls to
HOLDOVER after 1000 ms, HOLDOVER to FREE after 30,000 ms, SEEK to FREE after 1000 ms. That the clock keeps the millisecond it
last slewed in, and slews in none twice, is the model's choice (log 15); a boundary it reaches stands behind those not yet taken
(log 16). -/
def Obligations.ClockTimers : Prop :=
  (∀ s : State, s.clock.mode = .locked → 0 < s.clock.catchUp → 3000 ∣ s.clock.thirds →
    s.clock.slewedAt ≠ s.clock.thirds / 3000 → s.clock.ms * 1000 + s.clock.us < 4294967295 * 1000 + 999 →
    exec .catchUpSlew s = .next
      { s with
        clock := { s.clock with
          ms := (s.clock.ms * 1000 + s.clock.us + 1) / 1000, us := (s.clock.ms * 1000 + s.clock.us + 1) % 1000,
          catchUp := s.clock.catchUp - 1, slewedAt := s.clock.thirds / 3000 },
        marks :=
          if 4000 ∣ s.clock.ms * 1000 + s.clock.us + 1 then
            let b : Int := ((s.clock.ms * 1000 + s.clock.us + 1) / 1000 : Nat)
            { epoch := s.clock.epoch, playback := s.marks.playback ++ [b],
              axes := { pan := s.marks.axes.pan ++ [b], tilt := s.marks.axes.tilt ++ [b] },
              colour := s.marks.colour ++ [b], feed := s.marks.feed ++ [b] }
          else s.marks }) ∧
  (∀ s : State, s.clock.mode = .locked → 0 < s.clock.catchUp → 3000 ∣ s.clock.thirds →
    s.clock.slewedAt ≠ s.clock.thirds / 3000 → 4294967295 * 1000 + 999 ≤ s.clock.ms * 1000 + s.clock.us →
    exec .catchUpSlew s = .next
      { s with
        clock := { s.clock with catchUp := s.clock.catchUp - 1, slewedAt := s.clock.thirds / 3000 } }) ∧
  (∀ (s : State) (t : Nat), s.clock.mode = .locked → s.clock.lastBeacon = some t → t + 1000 ≤ s.clock.thirds / 3000 →
    exec .holdoverEntry s = .next
      (({ s with
          clock := { s.clock with
            mode := .holdover, holdoverEntry := some (s.clock.thirds / 3000), catchUp := 0 } } : State).tallyClock
        fun k => { k with holdovers := min (k.holdovers + 1) 65535 })) ∧
  (∀ (s : State) (t : Nat), s.clock.mode = .holdover → s.clock.holdoverEntry = some t →
    t + 30000 ≤ s.clock.thirds / 3000 →
    exec .holdoverToFree s = .next
      (({ s with
          clock := { s.clock with
            mode := .free, holdoverEntry := none, consecutive := 0, disagreement := 0, catchUp := 0 } } : State).tallyClock
        fun k => { k with losses := min (k.losses + 1) 65535 })) ∧
  (∀ (s : State) (t : Nat), s.clock.mode = .seek → s.clock.lastBeacon = some t → t + 1000 ≤ s.clock.thirds / 3000 →
    exec .seekToFree s = .next
      (({ s with clock := { s.clock with mode := .free, consecutive := 0, catchUp := 0 } } : State).tallyClock
        fun k => { k with losses := min (k.losses + 1) 65535 }))

/-- At the next beacon time a BEACON is placed for both ports, of station kind 1 and with the own interval, an entry that
still waits keeping its entry time, and the next beacon time moves on by the beacon interval. -/
def Obligations.BeaconPlaced : Prop :=
  ∀ (s : State) (n : Nat), s.clock.nextBeacon = some n → n ≤ s.clock.thirds / 3000 →
    ∃ t, exec .beaconTimer s = .next t ∧ BeaconEntered s t ∧
      t = { s with
        clock := { s.clock with nextBeacon := some (n + s.settings.beaconInterval) }, outbox := t.outbox,
        ports := t.ports }

/-- Show time never runs back within an epoch and the epoch never falls, but for a device reset, which sets both to 0; and
the local timebase gains a third of a µs at most and is set back by nothing else. -/
def Obligations.ShowTimeNeverRunsBack : Prop :=
  ∀ s : State, ShowTimeInRange s → Ensures (step s) fun t =>
    ShowTimeInRange t ∧
      ((t.clock.thirds = 0 ∧ t.clock.epoch = 0 ∧ t.clock.ms = 0 ∧ t.clock.us = 0) ∨
        (s.clock.epoch ≤ t.clock.epoch ∧
          (t.clock.epoch = s.clock.epoch →
            s.clock.ms * 1000 + s.clock.us ≤ t.clock.ms * 1000 + t.clock.us) ∧
          (t.clock.thirds = s.clock.thirds ∨ t.clock.thirds = s.clock.thirds + 1)))

/-! ### Peer Table -/

/-- A FEED-NOTE, a MATCH-NOTE or a BEACON of a known station refreshes its record, and one of a new station enters it while
the table has room. A note's part is set for circuit or group 1 to 15 and removed otherwise; a BEACON sets the kind and the
beacon part, its interval brought within 5 to 25 units. Every other record stands. -/
def Obligations.PeerNoteTaken : Prop :=
  ∀ (s : State) (f : Frame),
    let up := s.clock.thirds / 3000
    let station := f.origin.toNat
    let heard : PeerRecord :=
      match peerOf s.peers station with
      | some r =>
        { r with
          lastHeard := up, heard := r.heard.set f.port true, leastHops := min r.leastHops f.hops.toNat,
          groups := f.groups }
      | none =>
        { station := station, kind := .fixture, groups := f.groups,
          heard := { a := decide (f.port = .a), b := decide (f.port = .b) }, leastHops := f.hops.toNat, lastHeard := up,
          beaconPart := none, feedPart := none, matchPart := none }
    let entered := fun (r : PeerRecord) (t : State) =>
      peerOf t.peers station = some r ∧ ∀ m, m ≠ station → peerOf t.peers m = peerOf s.peers m
    (peerOf s.peers station ≠ none ∨ s.peers.length < 24) →
      (Taken s .feedNote f →
        let circuit := fieldAt f.payload 0 1
        ∃ t, exec (.feedNote f) s = .next t ∧ t = { s.heard f with peers := t.peers } ∧
          entered
            { heard with
              feedPart :=
                if 1 ≤ circuit ∧ circuit ≤ 15 then
                  some { circuit := circuit, claim := fieldAt f.payload 1 2,
                         tripped := (fieldAt f.payload 3 1).testBit 0, refreshed := up }
                else none } t) ∧
      (Taken s .matchNote f →
        let group := fieldAt f.payload 0 1
        ∃ t, exec (.matchNote f) s = .next t ∧ t = { s.heard f with peers := t.peers } ∧
          entered
            { heard with
              matchPart :=
                if 1 ≤ group ∧ group ≤ 15 then
                  some
                    { group := group,
                      ceilings := { red := fieldAt f.payload 2 2, green := fieldAt f.payload 4 2,
                                    blue := fieldAt f.payload 6 2, white := fieldAt f.payload 8 2 },
                      outOfMatch := (fieldAt f.payload 1 1).testBit 0, pulled := (fieldAt f.payload 1 1).testBit 1,
                      refreshed := up }
                else none } t) ∧
      (Taken s .beacon f →
        let code := fieldAt f.payload 0 1
        let state := fieldAt f.payload 1 1
        ∃ t, exec (.beacon f) s = .next t ∧
          entered
            { heard with
              kind := if code = 1 then .fixture else if code = 2 then .cueSource else heard.kind,
              beaconPart := some
                { mode := if state = 1 then .seek else if state = 2 then .locked else if state = 3 then .holdover
                    else .free,
                  epoch := fieldAt f.payload 2 2,
                  interval := 10 * max 5 (min 25 (fieldAt f.payload 13 1)) } } t)

/-- A FEED-NOTE, a MATCH-NOTE or a BEACON of a new station meets a full table: the record last heard longest ago, then of
the greater least hops, then of the higher station number, is replaced if its age is more than twice its age unit, and
otherwise the frame is not entered. -/
def Obligations.FullPeerTable : Prop :=
  ∀ (s : State) (f : Frame) (c : PeerRecord), PeersHold s →
    let up := s.clock.thirds / 3000
    let station := f.origin.toNat
    let unit := match c.beaconPart with
      | some b => b.interval
      | none => s.settings.beaconInterval
    let replaced := fun (t : State) => t.peers.length = 24 ∧ peerOf t.peers c.station = none ∧
      (∃ r, peerOf t.peers station = some r ∧ r.lastHeard = up ∧ r.leastHops = f.hops.toNat) ∧
      ∀ m, m ≠ station → m ≠ c.station → peerOf t.peers m = peerOf s.peers m
    peerOf s.peers station = none → s.peers.length = 24 → c ∈ s.peers →
    (∀ r ∈ s.peers, r ≠ c → c.lastHeard < r.lastHeard ∨ (c.lastHeard = r.lastHeard ∧
      (r.leastHops < c.leastHops ∨ (r.leastHops = c.leastHops ∧ r.station < c.station)))) →
    (∀ k, k = .feedNote ∨ k = .matchNote → Taken s k f →
      (2 * unit < up - c.lastHeard →
        ∃ t, exec (commandOf k f) s = .next t ∧ replaced t ∧
          (∀ r, peerOf t.peers station = some r → r.beaconPart = none) ∧
          t = { (s.heard f).tallyPeers (fun k => { k with replaced := min (k.replaced + 1) 65535 }) with
            peers := t.peers }) ∧
      (up - c.lastHeard ≤ 2 * unit →
        exec (commandOf k f) s = .next
          ((s.heard f).tallyPeers fun k => { k with tableFull := min (k.tableFull + 1) 65535 }))) ∧
    (Taken s .beacon f →
      (2 * unit < up - c.lastHeard →
        ∃ t, exec (.beacon f) s = .next t ∧ replaced t ∧
          (∀ r, peerOf t.peers station = some r → r.beaconPart ≠ none ∧ r.feedPart = none ∧ r.matchPart = none) ∧
          t.stats.peers = { s.stats.peers with replaced := s.counter s.stats.peers.replaced }) ∧
      (up - c.lastHeard ≤ 2 * unit →
        ∃ t, exec (.beacon f) s = .next t ∧ t.peers = s.peers ∧
          t.stats.peers = { s.stats.peers with tableFull := s.counter s.stats.peers.tableFull }))

/-- A record is removed when its age reaches four of its age units; its feed part 1000 ms, and its match part 2000 ms,
after it was refreshed. Every other record stands. -/
def Obligations.PeersForgotten : Prop :=
  ∀ (s : State) (station : Byte) (r : PeerRecord), peerOf s.peers station.toNat = some r →
    let up := s.clock.thirds / 3000
    let unit := match r.beaconPart with
      | some b => b.interval
      | none => s.settings.beaconInterval
    let without := fun (x : Option PeerRecord) (t : State) =>
      peerOf t.peers station.toNat = x ∧
        (∀ m, m ≠ station.toNat → peerOf t.peers m = peerOf s.peers m)
    (r.lastHeard + 4 * unit ≤ up →
      ∃ t, exec (.peerAgeOut station) s = .next t ∧ without none t ∧
        t = { s.tallyPeers (fun k => { k with agedOut := min (k.agedOut + 1) 65535 }) with peers := t.peers }) ∧
    (∀ x, r.feedPart = some x → x.refreshed + 1000 ≤ up →
      ∃ t, exec (.feedPartLapse station) s = .next t ∧ without (some { r with feedPart := none }) t ∧
        t = { s with peers := t.peers }) ∧
    (∀ x, r.matchPart = some x → x.refreshed + 2000 ≤ up →
      ∃ t, exec (.matchPartLapse station) s = .next t ∧ without (some { r with matchPart := none }) t ∧
        t = { s with peers := t.peers })

/-! ### Cue Store -/

/-- A CUE-LOAD's four tests in order: the number, the parts, the protect line, the room. The first that fails refuses it:
the refusal is recorded and counted and the list stands. -/
def Obligations.CueLoadRefused : Prop :=
  ∀ (s : State) (f : Frame), Taken s .cueLoad f →
    let n := fieldAt f.payload 0 2
    let has := fun i => (fieldAt f.payload 2 1).testBit i
    let refused := fun kind => exec (.cueLoad f) s = .next ((s.heard f).refused kind n f.origin.toNat)
    ((n < 1 ∨ 9999 < n) → refused .badNumber) ∧
    (1 ≤ n → n ≤ 9999 → has 0 = false → has 1 = false → has 2 = false → refused .empty) ∧
    (1 ≤ n → n ≤ 9999 → (has 0 ∨ has 1 ∨ has 2) → n ≤ s.cues.line → refused .isProtected) ∧
    (1 ≤ n → n ≤ 9999 → (has 0 ∨ has 1 ∨ has 2) → s.cues.line < n → (∀ q ∈ s.cues.cues, q.number ≠ n) →
      128 ≤ s.cues.cues.length → refused .full)

/-- A CUE-LOAD that passes its tests stores the parts it carries, each value brought within its range and a move group
above 15 taken as 0, in place of the record of its number or as a new one; every other record stands. -/
def Obligations.CueLoadStored : Prop :=
  ∀ (s : State) (f : Frame), Taken s .cueLoad f →
    let at2 := fun i => fieldAt f.payload i 2
    let n := at2 0
    let group := fieldAt f.payload 9 1
    let follow := fieldAt f.payload 26 3
    let has := fun i => (fieldAt f.payload 2 1).testBit i
    let held := ∃ q ∈ s.cues.cues, q.number = n
    let q : Cue :=
      { number := n,
        pos :=
          if has 0 then
            some { target := { pan := min (at2 3) 54000, tilt := min (at2 5) 27000 }, moveMs := min (at2 7) 60000,
                   moveGroup := if 15 < group then 0 else group, dark := has 5 }
          else none,
        col :=
          if has 1 then
            some { levels := { red := min (at2 10) 1000, green := min (at2 12) 1000, blue := min (at2 14) 1000,
                               white := min (at2 16) 1000 },
                   ms := min (at2 18) 60000 }
          else none,
        int := if has 2 then some { level := min (at2 20) 1000, ms := min (at2 22) 60000 } else none,
        delay := if has 3 then min (at2 24) 60000 else 0,
        follow := if has 4 then some (min follow 600000) else none }
    let clamped :=
      (has 0 ∧ (54000 < at2 3 ∨ 27000 < at2 5 ∨ 60000 < at2 7 ∨ 15 < group)) ∨
        (has 1 ∧ (1000 < at2 10 ∨ 1000 < at2 12 ∨ 1000 < at2 14 ∨ 1000 < at2 16 ∨ 60000 < at2 18)) ∨
        (has 2 ∧ (1000 < at2 20 ∨ 60000 < at2 22)) ∨ (has 3 ∧ 60000 < at2 24) ∨ (has 4 ∧ 600000 < follow)
    1 ≤ n → n ≤ 9999 → (has 0 ∨ has 1 ∨ has 2) → s.cues.line < n → (held ∨ s.cues.cues.length < 128) →
    ∃ t, exec (.cueLoad f) s = .next t ∧ t.cues.cueNumbered n = some q ∧
      (∀ m, m ≠ n → t.cues.cueNumbered m = s.cues.cueNumbered m) ∧
      t.cues = { s.cues with cues := t.cues.cues } ∧
      (held → t.stats.cues.replaced = s.counter s.stats.cues.replaced ∧
        t.stats.cues.inserted = s.stats.cues.inserted) ∧
      (¬ held → t.stats.cues.inserted = s.counter s.stats.cues.inserted ∧
        t.stats.cues.replaced = s.stats.cues.replaced) ∧
      (clamped → t.stats.cues.clamped = s.counter s.stats.cues.clamped) ∧
      (¬ clamped → t.stats.cues.clamped = s.stats.cues.clamped) ∧
      t = { s.heard f with cues := t.cues, stats := t.stats }

/-- A CUE-CLEAR removes the records of its range above the protect line and reports the lowest one it keeps; with its high
number below its low it is refused. A PROTECT sets the line, unless it is above 9999 or below the line. -/
def Obligations.ClearAndProtect : Prop :=
  (∀ (s : State) (f : Frame), Taken s .cueClear f →
    let low := fieldAt f.payload 0 2
    let high := fieldAt f.payload 2 2
    (high < low → exec (.cueClear f) s = .next ((s.heard f).refused .badNumber low f.origin.toNat)) ∧
    (low ≤ high →
      let goes := fun (q : Cue) => low ≤ q.number ∧ q.number ≤ high ∧ s.cues.line < q.number
      let stays := fun (q : Cue) => low ≤ q.number ∧ q.number ≤ high ∧ q.number ≤ s.cues.line
      let cleared := ({ s.heard f with
        cues := { s.cues with cues := s.cues.cues.filter fun q => ¬ goes q } } : State).tallyCues
          fun k => { k with removed := min (k.removed + s.cues.cues.countP fun q => goes q) 65535 }
      ((∀ q ∈ s.cues.cues, ¬ stays q) → exec (.cueClear f) s = .next cleared) ∧
      ∀ q, q ∈ s.cues.cues → stays q → CuesHold s → (∀ r ∈ s.cues.cues, stays r → q.number ≤ r.number) →
        exec (.cueClear f) s = .next (cleared.refused .isProtected q.number f.origin.toNat))) ∧
  (∀ (s : State) (f : Frame), Taken s .protect f →
    let line := fieldAt f.payload 0 2
    (9999 < line → exec (.protect f) s = .next ((s.heard f).refused .badNumber line f.origin.toNat)) ∧
    (line ≤ 9999 → line < s.cues.line →
      exec (.protect f) s = .next ((s.heard f).refused .lineDown line f.origin.toNat)) ∧
    (line ≤ 9999 → s.cues.line ≤ line →
      exec (.protect f) s = .next { s.heard f with cues := { s.cues with line := line } }))

/-- A step keeps the cue list at no more than 128 records, in ascending number and within their ranges, and the protect
line within 0 to 9999; the peer table at no more than 24 records, of stations 1 to 250, each once; and the setup record in
its canonical form. -/
def Obligations.TablesKept : Prop :=
  KeptByStep CuesHold ∧ KeptByStep PeersHold ∧ KeptByStep StoreHolds

/-- But for a device reset, no step lowers the protect line, and none removes, replaces or adds a record at or below it. -/
def Obligations.ProtectedCuesKept : Prop :=
  ∀ s : State, Ensures (step s) fun t =>
    IsReset t ∨
      (s.cues.line ≤ t.cues.line ∧
        (t.cues.cues.filter fun q => q.number ≤ s.cues.line) = s.cues.cues.filter fun q => q.number ≤ s.cues.line)

/-! ### Playback Unit -/

/-- A CUE-GO that is a duplicate is absorbed; on a synced clock one with its tick ahead waits in the pending slot; and a GO
that resolves to no cue is refused with NO-CUE, changing no lane and no record but the slot it came from. That such a GO has
been counted as late or unsynced, and that a pending GO it replaces is dropped, is the model's choice (log 18). -/
def Obligations.GoNotTaken : Prop :=
  (∀ (s : State) (f : Frame), Taken s .cueGo f →
    let n := fieldAt f.payload 0 2
    let tick : Int := (fieldAt f.payload 2 4 : Nat)
    let dropped := fun (k : PlayStats) =>
      if s.play.pendingGo = none then k else { k with pendingReplaced := min (k.pendingReplaced + 1) 65535 }
    let empty : State := { s.heard f with play := { s.play with pendingGo := none } }
    (DuplicateGo s n tick →
      exec (.cueGo f) s = .next ((s.heard f).tallyPlay fun k => { k with duplicates := min (k.duplicates + 1) 65535 })) ∧
    (¬ DuplicateGo s n tick → (s.clock.mode = .locked ∨ s.clock.mode = .holdover) → (s.clock.ms : Int) < tick →
      exec (.cueGo f) s = .next
        (({ s.heard f with
            play := { s.play with pendingGo := some { cueField := n, tick := tick, origin := f.origin.toNat } } } :
              State).tallyPlay dropped)) ∧
    (¬ DuplicateGo s n tick → (s.clock.mode = .locked ∨ s.clock.mode = .holdover) → tick ≤ s.clock.ms → CuesHold s →
      (∀ q, ¬ ResolvesTo s n q) →
      exec (.cueGo f) s = .next
        ((empty.tallyPlay fun k =>
          { dropped k with
            lateGos :=
              if tick < s.clock.ms then min ((dropped k).lateGos + 1) 65535 else (dropped k).lateGos }).refused
                .noCue n f.origin.toNat)) ∧
    (¬ DuplicateGo s n tick → (s.clock.mode = .free ∨ s.clock.mode = .seek) → CuesHold s →
      (∀ q, ¬ ResolvesTo s n q) →
      exec (.cueGo f) s = .next
        ((empty.tallyPlay fun k =>
          { dropped k with unsynced := min ((dropped k).unsynced + 1) 65535 }).refused .noCue n f.origin.toNat))) ∧
  (∀ (s : State) (g : PendingGo), CuesHold s → s.play.pendingGo = some g → g.tick ≤ s.clock.ms →
    (∀ q, ¬ ResolvesTo s g.cueField q) →
    exec .pendingGoTick s = .next
      (({ s with play := { s.play with pendingGo := none } } : State).refused .noCue g.cueField g.origin)) ∧
  (∀ (s : State) (g : FollowTimer), CuesHold s → s.play.follow = some g → g.tick ≤ s.clock.ms →
    (∀ q, ¬ NextCue s g.source q) →
    exec .followTick s = .next
      (({ s with play := { s.play with follow := none } } : State).refused .noCue g.source 0))

/-- A GO, a pending GO whose tick is reached, and a follow are each taken: the level lanes of the cue's parts, the last-taken
GO and the follow timer are set, with the effective go tick and the carried one that each has, whatever the cue holds of
position and whether or not a gather is open. -/
def Obligations.GoTakesLevels : Prop :=
  ∀ (s : State) (q : Cue), CuesHold s →
    let now : Int := (s.clock.ms : Nat)
    let play := s.stats.play
    let frame := fun (t : State) =>
      t = { s with
        play := t.play, stats := t.stats, outbox := t.outbox, ports := t.ports, longestWait := t.longestWait }
    (∀ f, Taken s .cueGo f →
      let n := fieldAt f.payload 0 2
      let tick : Int := (fieldAt f.payload 2 4 : Nat)
      ¬ DuplicateGo s n tick → ResolvesTo s n q →
      ((s.clock.mode = .locked ∨ s.clock.mode = .holdover) → tick ≤ now →
        ∃ t, exec (.cueGo f) s = .next t ∧ LevelsTaken s t q n tick tick ∧ t.play.pendingGo = none ∧
          t.stats.play.gosTaken = s.counter play.gosTaken ∧
          t.stats.play.lateGos = (if tick < now then s.counter play.lateGos else play.lateGos) ∧
          t.stats.play.unsynced = play.unsynced ∧ frame t) ∧
      ((s.clock.mode = .free ∨ s.clock.mode = .seek) →
        ∃ t, exec (.cueGo f) s = .next t ∧ LevelsTaken s t q n now tick ∧ t.play.pendingGo = none ∧
          t.stats.play.gosTaken = s.counter play.gosTaken ∧ t.stats.play.unsynced = s.counter play.unsynced ∧
          t.stats.play.lateGos = play.lateGos ∧ frame t)) ∧
    (∀ g, s.play.pendingGo = some g → g.tick ≤ now → ResolvesTo s g.cueField q →
      ∃ t, exec .pendingGoTick s = .next t ∧ LevelsTaken s t q g.cueField g.tick g.tick ∧ t.play.pendingGo = none ∧
        t.stats.play = { play with gosTaken := s.counter play.gosTaken } ∧ frame t) ∧
    (∀ g, s.play.follow = some g → g.tick ≤ now → NextCue s g.source q →
      ∃ t, exec .followTick s = .next t ∧ LevelsTaken s t q q.number g.tick g.tick ∧
        t.play.pendingGo = s.play.pendingGo ∧
        t.stats.play =
          { play with gosTaken := s.counter play.gosTaken, followsTaken := s.counter play.followsTaken } ∧ frame t)

/-- The position lanes and the gather that a GO, a pending GO and a follow each leave: an open gather is cancelled, and its
lanes planned at once when the cue sets none; a dark part waits for dark; a grouped one opens a gather and places its
MOVE-NOTE, but never in a GO taken unsynced; and any other makes a plain move. -/
def Obligations.GoSetsPosition : Prop :=
  ∀ (s : State) (q : Cue), CuesHold s →
    let now : Int := (s.clock.ms : Nat)
    let synced := s.clock.mode = .locked ∨ s.clock.mode = .holdover
    let frame := fun (t : State) =>
      t = { s with
        play := t.play, stats := t.stats, outbox := t.outbox, ports := t.ports, longestWait := t.longestWait }
    (∀ f, Taken s .cueGo f →
      let n := fieldAt f.payload 0 2
      let tick : Int := (fieldAt f.payload 2 4 : Nat)
      ¬ DuplicateGo s n tick → ResolvesTo s n q →
      (synced → tick ≤ now → ∃ t, exec (.cueGo f) s = .next t ∧ PositionTaken s t q tick True ∧ frame t) ∧
      (¬ synced → ∃ t, exec (.cueGo f) s = .next t ∧ PositionTaken s t q now False ∧ frame t)) ∧
    (∀ g, s.play.pendingGo = some g → g.tick ≤ now → ResolvesTo s g.cueField q →
      ∃ t, exec .pendingGoTick s = .next t ∧ PositionTaken s t q g.tick synced ∧ frame t) ∧
    (∀ g, s.play.follow = some g → g.tick ≤ now → NextCue s g.source q →
      ∃ t, exec .followTick s = .next t ∧ PositionTaken s t q g.tick synced ∧ frame t)

/-- The Move Planner: its two tests each give the smallest number of render frames that meets them, the minimum time is the
greater, 0 for no distance and at most 72,000; targets come within the soft limits, the effective acceleration follows the
grant, the plan length covers both axes and the cut move time, and the profile is the trapezoid, rounded half away from zero.
And the brake cap of the follow limiter is the largest whole speed whose stopping distance is at most the error (R132). -/
def Obligations.SearchesAreExact : Prop :=
  (∀ vmax aEff dist : Nat, 1 ≤ vmax → 1 ≤ aEff →
    let fastEnough := fun T => 4 * dist ≤ 3 * vmax * T
    let gentleEnough := fun T => 256 * dist ≤ 3 * aEff * T ^ 2
    (fastEnough (speedTime vmax dist) ∧ ∀ T, fastEnough T → speedTime vmax dist ≤ T) ∧
      (gentleEnough (accelTime aEff dist) ∧ ∀ T, gentleEnough T → accelTime aEff dist ≤ T) ∧
      minimumTime vmax aEff dist = max (speedTime vmax dist) (accelTime aEff dist) ∧
      (dist = 0 → minimumTime vmax aEff dist = 0) ∧
      (dist ≤ 54000 → minimumTime vmax aEff dist ≤ 72000 ∧ accelTime aEff dist ≤ 2147)) ∧
  ((∀ aEff, 1 ≤ aEff → minimumTime 1 aEff 54000 = 72000) ∧ accelTime 1 54000 = 2147) ∧
  (∀ aEff err : Nat, 1 ≤ aEff →
    let stops := fun w => ((List.range (w + 1)).map fun k => w - k * aEff).sum
    stops (brakeCap aEff err) ≤ err ∧ ∀ w, stops w ≤ err → w ≤ brakeCap aEff err) ∧
  (∀ (a : AxisSettings) (grant : Nat),
    (a.runCurrent = a.holdCurrent → effectiveAccel a grant = a.accel) ∧
    (a.holdCurrent < a.runCurrent → effectiveAccel a grant =
      a.accelHold + (a.accel - a.accelHold) * (max a.holdCurrent (min grant a.runCurrent) - a.holdCurrent) /
        (a.runCurrent - a.holdCurrent))) ∧
  (∀ (s : State) (start target : PerAxis Int) (moveMs cap : Nat),
    (∀ x, (s.settings.axes.get x).softLow ≤ (s.settings.axes.get x).softHigh) →
    let plan := s.plan start target moveMs cap
    let least := fun x => minimumTime (s.settings.axes.get x).vmax
      (effectiveAccel (s.settings.axes.get x) (s.feed.grant.get x)) (plan.target.get x - start.get x).natAbs
    let cueTime := min ((moveMs + 3) / 4) cap
    (∀ x, plan.target.get x =
      max ((s.settings.axes.get x).softLow : Int) (min ((s.settings.axes.get x).softHigh : Int) (target.get x))) ∧
    plan.length = max cueTime (max (least .pan) (least .tilt)) ∧
    (plan.stretched = true ↔ (cueTime < plan.length ∧ 0 < moveMs) ∨ ∃ x, 15000 < least x)) ∧
  (∀ (d : Int) (T n : Nat), 0 < T → n ≤ T →
    (4 * n ≤ T → RoundedTo (8 * d * (n : Int) ^ 2) (3 * T ^ 2) (profile d T n)) ∧
    (T < 4 * n → 4 * n < 3 * T → RoundedTo (d * (8 * (n : Int) - T)) (6 * T) (profile d T n)) ∧
    (3 * T ≤ 4 * n → RoundedTo (8 * d * ((T : Int) - n) ^ 2) (3 * T ^ 2) (d - profile d T n)) ∧
    profile d T 0 = 0 ∧ profile d T T = d ∧ (profile d T n).natAbs ≤ d.natAbs ∧ 0 ≤ d * profile d T n)

/-- The value of a lane at a show ms count, by its state: its start value in WAIT, its target in HOLD, and in FADE the
straight line of a level or the profile of a position. And show time reaches a tick of a lane: a DELAY wait goes to FADE at its
start tick, or on to HOLD at its target when its end tick is reached too, and a fade goes to HOLD at its target; nothing else
is moved by a tick. What a consumer reads of a lane at a boundary is the value the tick leaves it, whether or not that tick has
been taken; that a reading goes by the ticks show time has reached is the model's reading of this (log 41). -/
def Obligations.LaneTick : Prop :=
  (∀ s : State,
    let now : Int := (s.clock.ms : Nat)
    let fades := fun (t : Timing) => t.state = .wait .delay ∧ t.startTick ≤ now ∧ ∀ e, t.endTick = some e → now < e
    let ends := fun (t : Timing) =>
      ((t.state = .wait .delay ∧ t.startTick ≤ now) ∨ t.state = .fade) ∧ ∃ e, t.endTick = some e ∧ e ≤ now
    let stays := fun (t : Timing) =>
      t.state = .hold ∨ t.state = .wait .gather ∨ t.state = .wait .dark ∨ (t.state = .wait .delay ∧ now < t.startTick) ∨
        (t.state = .fade ∧ ∀ e, t.endTick = some e → now < e)
    let l := s.play.pos
    let i := s.play.intensity
    let c := s.play.colour
    (fades l.timing → exec (.laneTick .position) s = .next
      { s with play := { s.play with pos := { l with timing := { l.timing with state := .fade } } } }) ∧
    (ends l.timing → exec (.laneTick .position) s = .next
      { s with play := { s.play with pos := { l with timing := { l.timing with state := .hold }, start := l.target } } }) ∧
    (fades i.timing → exec (.laneTick .intensity) s = .next
      { s with play := { s.play with intensity := { i with timing := { i.timing with state := .fade } } } }) ∧
    (ends i.timing → exec (.laneTick .intensity) s = .next
      { s with
        play := { s.play with intensity := { i with timing := { i.timing with state := .hold }, start := i.target } } }) ∧
    (fades c.timing → exec (.laneTick .colour) s = .next
      { s with play := { s.play with colour := { c with timing := { c.timing with state := .fade } } } }) ∧
    (ends c.timing → exec (.laneTick .colour) s = .next
      { s with play := { s.play with colour := { c with timing := { c.timing with state := .hold }, start := c.target } } }) ∧
    (∀ g, stays (s.play.timing g) → exec (.laneTick g) s = .next s)) ∧
  (∀ (s : State) (g : LaneGroup), ∃ t, exec (.laneTick g) s = .next t ∧
    ∀ b : Int,
      (t.intensityAt b = s.intensityAt b ∧ (g = .intensity → s.intensityAt b = t.play.intensity.value b)) ∧
      (∀ e, t.colourAt e b = s.colourAt e b ∧ (g = .colour → s.colourAt e b = t.play.colour.value e b)) ∧
      ∀ x, t.positionAt x b = s.positionAt x b ∧ (g = .position → s.positionAt x b = t.play.pos.value x b)) ∧
  (∀ (l : LevelLane) (t : Int),
    (l.timing.state = .hold → l.value t = l.target) ∧
    (∀ cause, l.timing.state = .wait cause → l.value t = l.start) ∧
    (∀ e, l.timing.state = .fade → l.timing.endTick = some e →
      (e ≤ t → l.value t = l.target) ∧
      (t < e → t < l.timing.startTick → l.value t = l.start) ∧
      (t < e → l.timing.startTick ≤ t →
        RoundedTo (((l.target : Int) - l.start) * (t - l.timing.startTick)) (e - l.timing.startTick).toNat
          ((l.value t : Int) - l.start)))) ∧
  (∀ (l : ColourLanes) (x : Emitter) (t : Int),
    l.value x t = LevelLane.value { timing := l.timing, start := l.start.get x, target := l.target.get x } t) ∧
  ∀ (l : PosLanes) (x : Axis) (t : Int),
    (l.timing.state = .hold → l.value x t = l.target.get x) ∧
    (∀ cause, l.timing.state = .wait cause → l.value x t = l.start.get x) ∧
    (∀ e T, l.timing.state = .fade → l.timing.endTick = some e → l.plan = some T →
      (e ≤ t → l.value x t = l.target.get x) ∧
      (t < e → t < l.timing.startTick → l.value x t = l.start.get x) ∧
      (∀ n : Nat, t < e → l.timing.startTick + 4 * (n : Int) ≤ t → t < l.timing.startTick + 4 * (n : Int) + 4 →
        l.value x t = l.start.get x + profile (l.target.get x - l.start.get x) T n))

/-- A CUE-RELEASE within 20 ms of the last one is absorbed; any other cancels the pending GO, the follow timer and an open
gather, fades INTENSITY out from its effective tick and sets a dark move to park; the colour lanes are not set. -/
def Obligations.CueRelease : Prop :=
  ∀ (s : State) (f : Frame), Taken s .cueRelease f →
    let tick : Int := (fieldAt f.payload 2 4 : Nat)
    let ms := min (fieldAt f.payload 0 2) 60000
    let now : Int := (s.clock.ms : Nat)
    let synced := s.clock.mode = .locked ∨ s.clock.mode = .holdover
    let begins := if s.clock.mode = .locked ∨ s.clock.mode = .holdover then tick else now
    (∀ r, s.play.lastRelease = some r → Within20 tick r →
      exec (.cueRelease f) s = .next
        ((s.heard f).tallyPlay fun k => { k with duplicates := min (k.duplicates + 1) 65535 })) ∧
    ((∀ r, s.play.lastRelease = some r → ¬ Within20 tick r) →
      ∃ t, exec (.cueRelease f) s = .next t ∧
        t.play =
          { s.play with
            pos :=
              { timing := { state := .wait .dark, startTick := begins, endTick := none },
                start := { pan := s.play.pos.value .pan now, tilt := s.play.pos.value .tilt now },
                target := { pan := (s.settings.axes.pan.park : Nat), tilt := (s.settings.axes.tilt.park : Nat) },
                plan := none, moveMs := 0 },
            intensity := t.play.intensity, pendingGo := none, follow := none, lastRelease := some tick, gather := none,
            finished :=
              match s.play.gather with
              | some g => some { group := g.group, cue := g.cue, goTick := g.goTick }
              | none => s.play.finished } ∧
        t.play.intensity.target = 0 ∧ TimingSet begins (begins + (ms : Nat)) now t.play.intensity.timing ∧
        t.play.intensity.start = s.play.intensity.value now ∧
        t.stats.play.releasesTaken = s.counter s.stats.play.releasesTaken ∧
        (synced → tick < now → t.stats.play.lateGos = s.counter s.stats.play.lateGos) ∧
        (¬ synced → t.stats.play.unsynced = s.counter s.stats.play.unsynced) ∧
        t = { s with play := t.play, stats := t.stats })

/-- At its close tick a gather plans to the group end, but no later than its close tick and four times the greater of its
own plan and 15,000; its lanes go to FADE from now, and the finished gather record takes its place. -/
def Obligations.GatherCloses : Prop :=
  ∀ (s : State) (g : Gather), s.play.gather = some g → g.closeTick ≤ s.clock.ms →
    let now : Int := (s.clock.ms : Nat)
    let longest := max 15000 g.ownPlan
    let ends := min g.groupEnd (g.closeTick + 4 * (longest : Nat))
    let plan := s.plan s.play.pos.start s.play.pos.target (ends - now).toNat longest
    ∃ t, exec .gatherClose s = .next t ∧
      t.play =
        { s.play with
          pos :=
            { timing := { state := if plan.length = 0 then .hold else .fade, startTick := now,
                          endTick := some (now + 4 * (plan.length : Nat)) },
              start := if plan.length = 0 then plan.target else s.play.pos.start, target := plan.target,
              plan := some plan.length, moveMs := s.play.pos.moveMs },
          gather := none, finished := some { group := g.group, cue := g.cue, goTick := g.goTick } } ∧
      t.stats.plan =
        { s.stats.plan with
          stretched := if plan.stretched then s.counter s.stats.plan.stretched else s.stats.plan.stretched,
          gathersClosed := s.counter s.stats.plan.gathersClosed,
          gathersLengthened :=
            if g.ownPlan < plan.length then s.counter s.stats.plan.gathersLengthened
            else s.stats.plan.gathersLengthened,
          gathersCapped :=
            if g.closeTick + 4 * (longest : Nat) < g.groupEnd then s.counter s.stats.plan.gathersCapped
            else s.stats.plan.gathersCapped } ∧
      t = { s with play := t.play, stats := t.stats }

/-- A MOVE-NOTE of the open gather raises its group end, one of the finished gather is counted late, and one of neither is
kept as an early note or raises each one it matches; a full table gives up the entry of the earliest set time, then of the
lower move group, then of the lower cue number. Move group 0 or above 15 is ignored, and an early note lapses after 250 ms.
Which of two entries that agree in all three a full table gives up is the model's choice (log 19). -/
def Obligations.MoveNotes : Prop :=
  (∀ (s : State) (f : Frame), Taken s .moveNote f →
    let group := fieldAt f.payload 0 1
    let cue := fieldAt f.payload 1 2
    let tick : Int := (fieldAt f.payload 3 4 : Nat)
    let ends : Int := (fieldAt f.payload 7 4 : Nat)
    let ofGather := ∃ g, s.play.gather = some g ∧ g.group = group ∧ g.cue = cue ∧ Within20 tick g.goTick
    let ofFinished := ∃ g, s.play.finished = some g ∧ g.group = group ∧ g.cue = cue ∧ Within20 tick g.goTick
    let agrees := fun (m : EarlyNote) => m.group = group ∧ m.cue = cue ∧ Within20 tick m.goTick
    let entry : EarlyNote :=
      { group := group, cue := cue, goTick := tick, proposedEnd := ends, setAt := s.clock.thirds / 3000 }
    let goesBefore := fun (m k : EarlyNote) =>
      m.setAt < k.setAt ∨ (m.setAt = k.setAt ∧ (m.group < k.group ∨ (m.group = k.group ∧ m.cue < k.cue)))
    ((group = 0 ∨ 15 < group) → exec (.moveNote f) s = .next (s.heard f)) ∧
    (∀ g, 1 ≤ group → group ≤ 15 → s.play.gather = some g → g.group = group → g.cue = cue → Within20 tick g.goTick →
      exec (.moveNote f) s = .next
        (({ s.heard f with
            play := { s.play with
              gather := some { g with groupEnd := max g.groupEnd ends, notes := min (g.notes + 1) 255 } } } :
                State).tallyPlan fun k => { k with notesMatched := min (k.notesMatched + 1) 65535 })) ∧
    (1 ≤ group → group ≤ 15 → ¬ ofGather → ofFinished →
      exec (.moveNote f) s = .next
        ((s.heard f).tallyPlan fun k => { k with lateNotes := min (k.lateNotes + 1) 65535 })) ∧
    (1 ≤ group → group ≤ 15 → ¬ ofGather → ¬ ofFinished → (∀ m ∈ s.play.early, ¬ agrees m) →
      s.play.early.length < 4 →
      exec (.moveNote f) s = .next
        (({ s.heard f with play := { s.play with early := s.play.early ++ [entry] } } : State).tallyPlan
          fun k => { k with earlyNotes := min (k.earlyNotes + 1) 65535 })) ∧
    (∀ raised, 1 ≤ group → group ≤ 15 → ¬ ofGather → ¬ ofFinished → (∃ m ∈ s.play.early, agrees m) →
      raised.length = s.play.early.length →
      (∀ (i : Nat) (m k : EarlyNote), s.play.early[i]? = some m → raised[i]? = some k →
        (agrees m → k = { m with proposedEnd := max m.proposedEnd ends }) ∧ (¬ agrees m → k = m)) →
      exec (.moveNote f) s = .next { s.heard f with play := { s.play with early := raised } }) ∧
    (∀ xs m ys, 1 ≤ group → group ≤ 15 → ¬ ofGather → ¬ ofFinished → s.play.early = xs ++ m :: ys →
      s.play.early.length = 4 → (∀ k ∈ s.play.early, ¬ agrees k) →
      (∀ k ∈ xs, goesBefore m k) → (∀ k ∈ ys, ¬ goesBefore k m) →
      exec (.moveNote f) s = .next
        (({ s.heard f with play := { s.play with early := xs ++ ys ++ [entry] } } : State).tallyPlan
          fun k => { k with
            earlyNotes := min (k.earlyNotes + 1) 65535, earlyNotesLost := min (k.earlyNotesLost + 1) 65535 }))) ∧
  (∀ (s : State) (i : Fin 4) (xs ys : List EarlyNote) (m : EarlyNote), s.play.early = xs ++ m :: ys →
    xs.length = i.val → m.setAt + 250 ≤ s.clock.thirds / 3000 →
    exec (.earlyNoteLapse i) s = .next { s with play := { s.play with early := xs ++ ys } })

/-- At a boundary a DARK-waiting pair starts once its start tick is reached and INTENSITY reads 0, by a plain move with the
boundary's tick as the present instant; otherwise the boundary changes no lane. -/
def Obligations.DarkStart : Prop :=
  ∀ (s : State) (b : Int) (rest : List Int), s.marks.playback = b :: rest →
    let l := s.play.pos
    (l.timing.state = .wait .dark → l.timing.startTick ≤ b → s.intensityAt b = 0 →
      ∃ t, exec .darkStart s = .next t ∧ PlainMove s l.start l.target l.moveMs b b t.play.pos ∧
        t.play = { s.play with pos := t.play.pos } ∧ t.marks = { s.marks with playback := rest } ∧
        t = { s with marks := t.marks, play := t.play, stats := t.stats }) ∧
    ((l.timing.state ≠ .wait .dark ∨ b < l.timing.startTick ∨ s.intensityAt b ≠ 0) →
      exec .darkStart s = .next { s with marks := { s.marks with playback := rest } })

/-! ### Colour Renderer -/

/-- A boundary gives each emitter its achievable output, its target ceiling from the records of its match group, one glide
step of its rendered ceiling, its duty and its dither schedule, from the derate of the emitter temperature and the announced
pull; the schedule begins anew with the periods that start after the boundary, and entries into OUT-OF-MATCH and ceilings cut
are counted, in match group 0 too (log 26). Then it places a MATCH-NOTE on a change, or as the first once the first BEACON has
been placed. That a note which the next match time is due at the same instant stays owed is log 37. -/
def Obligations.ColourBoundary : Prop :=
  ∀ (s : State) (b : Int) (rest : List Int), s.marks.colour = b :: rest →
    let group := s.settings.matchGroup
    let c := s.colour
    let up := s.clock.thirds / 3000
    let counted := (s.peers.filterMap fun r => r.matchPart).filter fun m => m.group = group ∧ m.outOfMatch = false
    let cut := fun (t : State) (e : Emitter) =>
      if (t.colour.emitters.get e).achievable < (c.emitters.get e).rendered then 1 else 0
    let moved := fun (a old : Nat) => a ≠ old ∧ old ≤ 64 * ((a : Int) - old).natAbs
    (matchAnswer s.peers group).count = counted.length ∧
    ∃ t, exec .colourBoundary s = .next t ∧
      ((∀ m ∈ s.settings.derating, s.sense.emitterTemp < m.threshold) → t.colour.derate = 1000) ∧
      (∀ m ∈ s.settings.derating, m.threshold ≤ s.sense.emitterTemp →
        (∀ k ∈ s.settings.derating, k.threshold ≤ s.sense.emitterTemp →
          k.threshold < m.threshold ∨ (k.threshold = m.threshold ∧ m.derate ≤ k.derate)) →
        t.colour.derate = m.derate) ∧
      t.colour.outOfMatch =
        decide (t.colour.derate < s.settings.matchFloor ∨ t.colour.derate = 0 ∨ s.feed.tripEnd ≠ none) ∧
      (∀ e,
        let x := c.emitters.get e
        let y := t.colour.emitters.get e
        let full := s.settings.fullOutput.get e
        let light := y.rendered * s.colourAt e b * s.intensityAt b * 65536
        let pull := if t.colour.announced then t.colour.pAnn else s.feed.pull
        y.achievable = full * t.colour.derate / 1000 * t.colour.pAnn / 1000 ∧
        (counted = [] → (matchAnswer s.peers group).minima.get e = none) ∧
        ((group = 0 ∨ t.colour.outOfMatch = true ∨ counted = []) → y.target = y.achievable) ∧
        (∀ m ∈ counted, (∀ k ∈ counted, m.ceilings.get e ≤ k.ceilings.get e) →
          (matchAnswer s.peers group).minima.get e = some (m.ceilings.get e) ∧
          (group ≠ 0 → t.colour.outOfMatch = false → y.target = min y.achievable (m.ceilings.get e))) ∧
        y.rendered =
          (if group = 0 ∨ y.achievable < x.rendered then y.achievable
          else if x.rendered < y.target then min (x.rendered + max 1 (full / 512)) y.target
          else max (x.rendered - max 1 (full / 512)) y.target) ∧
        (MustBeDark s → y.unpulled = 0) ∧
        (¬ MustBeDark s → y.achievable = 0 → y.unpulled = 0) ∧
        (¬ MustBeDark s → 0 < y.achievable →
          y.unpulled = min ((2 * light + y.achievable * 1000000) / (2 * (y.achievable * 1000000))) 65536) ∧
        y.duty = y.unpulled * pull / 1000 ∧ y.base = y.duty / 16 ∧ y.frac = y.duty % 16 ∧ y.running = x.running ∧
        y.preload = (if 3 * c.nextPeriod ≤ s.clock.thirds then x.preload
          else if 1 ≤ y.frac then y.base + 1 else y.base)) ∧
      (t.colour.scheduleAt = s.clock.thirds ∧ t.colour.periodsStarted = 0 ∧ t.colour.nextPeriod = c.nextPeriod) ∧
      t.stats.colour.outOfMatchEntries =
        (if t.colour.outOfMatch = true ∧ c.outOfMatch = false then s.counter s.stats.colour.outOfMatchEntries
        else s.stats.colour.outOfMatchEntries) ∧
      t.stats.colour.ceilingCuts =
        (if s.setup.counting then
          min (s.stats.colour.ceilingCuts + (cut t .red + cut t .green + cut t .blue + cut t .white)) 65535
        else s.stats.colour.ceilingCuts) ∧
      (let note : Announcement :=
          { group := group, outOfMatch := t.colour.outOfMatch, pulled := t.colour.announced,
            ceilings := { red := t.colour.emitters.red.achievable, green := t.colour.emitters.green.achievable,
                          blue := t.colour.emitters.blue.achievable, white := t.colour.emitters.white.achievable } }
        let places := group ≠ 0 ∧
          ((c.lastAnnounced = none ∧ s.clock.nextBeacon ≠ none) ∨
            ∃ old, c.lastAnnounced = some old ∧
              (old.outOfMatch ≠ note.outOfMatch ∨ old.pulled ≠ note.pulled ∨
                ∃ e, moved (note.ceilings.get e) (old.ceilings.get e)))
        (places →
          t.colour.lastAnnounced = some note ∧ t.colour.nextMatch = some (up + 2 * s.settings.beaconInterval) ∧
            (t.colour.noteOwed = true ↔ c.noteOwed = true ∨ ∃ n, c.nextMatch = some n ∧ n ≤ up) ∧
            NotePlaced s t .matchNote 255
              ([BitVec.ofNat 8 group,
                BitVec.ofNat 8 ((if note.outOfMatch then 1 else 0) + if note.pulled then 2 else 0)] ++
                beBytes 2 note.ceilings.red ++ beBytes 2 note.ceilings.green ++ beBytes 2 note.ceilings.blue ++
                beBytes 2 note.ceilings.white) ∧
            t.stats.colour.matchNotesPlaced = s.counter s.stats.colour.matchNotesPlaced) ∧
        (¬ places →
          t.colour.lastAnnounced = c.lastAnnounced ∧ t.colour.nextMatch = c.nextMatch ∧
            t.colour.noteOwed = c.noteOwed ∧ NothingPlaced s t ∧
            t.stats.colour.matchNotesPlaced = s.stats.colour.matchNotesPlaced)) ∧
      t = { s with
        marks := { s.marks with colour := rest }, colour := t.colour, stats := { s.stats with colour := t.stats.colour },
        outbox := t.outbox, ports := t.ports, longestWait := t.longestWait }

/-- The announcement state follows the pull factor at boundaries: announced once it has been below 1000 for 500 ms, then
carrying it, and given up once it has been 1000 for 500 ms. The announced pull factor is 1000 while it is not
announced, and the PULLED flag of a MATCH-NOTE, placed at a boundary or at the next match time, says whether it is. -/
def Obligations.PullAnnounced : Prop :=
  let flagged := fun (s t : State) =>
    ∀ e, t.outbox.matchNote.entry = some e →
      s.outbox.matchNote.entry = some e ∨ (fieldAt e.payload 1 1).testBit 1 = t.colour.announced
  (∀ (s : State) (b : Int) (rest : List Int), s.marks.colour = b :: rest →
    let p := s.feed.pull
    let up := s.clock.thirds / 3000
    let c := s.colour
    ∃ t, exec .colourBoundary s = .next t ∧
      (∀ since, c.announced = false → p < 1000 → c.pulledSince = some since → since + 500 ≤ up →
        t.colour.announced = true ∧ t.colour.pAnn = p ∧ t.colour.pulledSince = none) ∧
      (∀ since, c.announced = false → p < 1000 → c.pulledSince = some since → up < since + 500 →
        t.colour.announced = false ∧ t.colour.pAnn = c.pAnn ∧ t.colour.pulledSince = some since) ∧
      (c.announced = false → p < 1000 → c.pulledSince = none →
        t.colour.announced = false ∧ t.colour.pAnn = c.pAnn ∧ t.colour.pulledSince = some up) ∧
      (c.announced = false → 1000 ≤ p →
        t.colour.announced = false ∧ t.colour.pAnn = c.pAnn ∧ t.colour.pulledSince = none) ∧
      (c.announced = true → p < 1000 →
        t.colour.announced = true ∧ t.colour.pAnn = p ∧ t.colour.unpulledSince = none) ∧
      (∀ since, c.announced = true → 1000 ≤ p → c.unpulledSince = some since → since + 500 ≤ up →
        t.colour.announced = false ∧ t.colour.pAnn = 1000 ∧ t.colour.unpulledSince = none) ∧
      (∀ since, c.announced = true → 1000 ≤ p → c.unpulledSince = some since → up < since + 500 →
        t.colour.announced = true ∧ t.colour.pAnn = c.pAnn ∧ t.colour.unpulledSince = some since) ∧
      (c.announced = true → 1000 ≤ p → c.unpulledSince = none →
        t.colour.announced = true ∧ t.colour.pAnn = c.pAnn ∧ t.colour.unpulledSince = some up) ∧
      ((c.announced = false → c.pAnn = 1000) → t.colour.announced = false → t.colour.pAnn = 1000) ∧
      flagged s t ∧
      t.stats.colour.pullAnnouncements =
        (if c.announced = false ∧ t.colour.announced = true then s.counter s.stats.colour.pullAnnouncements
        else s.stats.colour.pullAnnouncements)) ∧
  ∀ s : State, Ensures (exec .nextMatchTime s) fun t =>
    t.colour.announced = s.colour.announced ∧ t.colour.pAnn = s.colour.pAnn ∧ flagged s t

/-- At its next match time the renderer places a MATCH-NOTE of its achievable outputs and flags, and at its next note time
the Feed Share Unit places a FEED-NOTE of its claim and flags; each sets its next time and is counted. With no port UP the
entry is freed at once. A note still owed from such a time is placed in the same way (log 37). -/
def Obligations.PeriodicNotes : Prop :=
  ∀ s : State,
    let up := s.clock.thirds / 3000
    ((s.colour.noteOwed = true ∨ ∃ n, s.colour.nextMatch = some n ∧ n ≤ up) →
      ∃ t, exec .nextMatchTime s = .next t ∧
        t.colour =
          { s.colour with
            lastAnnounced := some
              { group := s.settings.matchGroup, outOfMatch := s.colour.outOfMatch, pulled := s.colour.announced,
                ceilings := { red := s.colour.emitters.red.achievable, green := s.colour.emitters.green.achievable,
                              blue := s.colour.emitters.blue.achievable,
                              white := s.colour.emitters.white.achievable } },
            nextMatch := some (up + 2 * s.settings.beaconInterval), noteOwed := false } ∧
        NotePlaced s t .matchNote 255
          ([BitVec.ofNat 8 s.settings.matchGroup,
            BitVec.ofNat 8 ((if s.colour.outOfMatch then 1 else 0) + if s.colour.announced then 2 else 0)] ++
            beBytes 2 s.colour.emitters.red.achievable ++ beBytes 2 s.colour.emitters.green.achievable ++
            beBytes 2 s.colour.emitters.blue.achievable ++ beBytes 2 s.colour.emitters.white.achievable) ∧
        t.stats.colour = { s.stats.colour with matchNotesPlaced := s.counter s.stats.colour.matchNotesPlaced } ∧
        t = { s with
          colour := t.colour, outbox := t.outbox, ports := t.ports, longestWait := t.longestWait, stats := t.stats }) ∧
    (FeedNoteDue s → s.settings.circuit ≠ 0 →
      ∃ t, exec .nextNoteTime s = .next t ∧
        NotePlaced s t .feedNote 255
          ([BitVec.ofNat 8 s.settings.circuit] ++ beBytes 2 s.feed.claim ++
            [BitVec.ofNat 8
              ((if s.feed.tripEnd.isSome then 1 else 0) + if s.feed.settling.isSome then 2 else 0)]) ∧
        t.feed =
          { s.feed with
            nextNote := some (up + s.settings.noteInterval), noteOwed := false,
            enabling :=
              if s.ports.a.up = false ∧ s.ports.b.up = false ∧ s.feed.enabling = .waiting then .due
              else s.feed.enabling } ∧
        t.stats.feed = { s.stats.feed with notesPlaced := s.counter s.stats.feed.notesPlaced } ∧
        t = { s with
          feed := t.feed, outbox := t.outbox, ports := t.ports, longestWait := t.longestWait, stats := t.stats })

/-- At an emitter period start each channel takes its on-count from its preload, which then holds the count of the next
period of its schedule; at a bridge period start each bridge takes its preload, the output microstep walks on, and the
preload holds the drive of the new microstep, whose coil values are the quarter sine's. Within a period an emitter output is on
for its on-count, and a bridge drives, opens and recirculates by its running duty and the deadtime, or stands at its idle level.
The instants of the starts are the model's choice (log 10), and that the levels are functions of the count is log 31. -/
def Obligations.PwmPeriods : Prop :=
  (∀ s : State, 3 * s.colour.nextPeriod ≤ s.clock.thirds →
    let j := if s.colour.scheduleAt = s.clock.thirds then s.colour.periodsStarted else s.colour.periodsStarted + 1
    ∃ t, exec .emitterPwmPeriod s = .next t ∧
      (∀ e, t.colour.emitters.get e =
        { s.colour.emitters.get e with
          running := (s.colour.emitters.get e).preload,
          preload :=
            if j + 1 ≤ (s.colour.emitters.get e).frac then (s.colour.emitters.get e).base + 1
            else (s.colour.emitters.get e).base }) ∧
      t = { s with
        colour := { s.colour with
          emitters := t.colour.emitters, periodsStarted := j, nextPeriod := s.colour.nextPeriod + 250 } }) ∧
  (∀ s : State, 3 * s.bridgeNext ≤ s.clock.thirds →
    ∃ t, exec .bridgePwmPeriod s = .next t ∧
      (∀ x,
        let a := s.axes.get x
        let y := t.axes.get x
        let st := s.settings.axes.get x
        let j := a.walk.walked + 1
        let duty := fun (c : Coil) (i : Nat) =>
          min ((2 * (1600 * (coilValue st.isReversed c y.output).natAbs * i) + 1000 * st.fullScale) /
            (2 * (1000 * st.fullScale))) 1600
        y.coilA.running = a.coilA.preload ∧ y.coilB.running = a.coilB.preload ∧
        (a.walk.walked < 100 →
          y.output = a.walk.origin + ((a.walk.target - a.walk.origin) * (j : Nat)).tdiv 100 ∧
            y.walk = { a.walk with walked := j }) ∧
        (100 ≤ a.walk.walked → y.output = a.output ∧ y.walk = a.walk) ∧
        (∀ i, a.current = some i → a.bridgeEnable = true → a.mode ≠ .tripped → 1 ≤ st.fullScale →
          y.coilA.preload = { duty := duty .a i, negative := decide (coilValue st.isReversed .a y.output < 0) } ∧
            y.coilB.preload = { duty := duty .b i, negative := decide (coilValue st.isReversed .b y.output < 0) }) ∧
        ((a.current = none ∨ a.bridgeEnable = false ∨ a.mode = .tripped) →
          y.coilA.preload.duty = 0 ∧ y.coilB.preload.duty = 0) ∧
        y = { a with
          output := y.output, walk := y.walk, coilA := y.coilA, coilB := y.coilB,
          live := a.bridgeEnable && decide (a.mode ≠ .tripped) }) ∧
      t = { s with axes := t.axes, bridgeNext := s.bridgeNext + 40 }) ∧
  (∀ (isReversed : Bool) (m : Int) (q k : Nat), q < 4 → k < 16 → m % 64 = (16 * q + k : Nat) →
    let sine : List Int := [0, 98, 195, 290, 383, 471, 556, 634, 707, 773, 831, 882, 924, 957, 981, 995, 1000]
    let rising := sine.getD k 0
    let falling := sine.getD (16 - k) 0
    coilValue isReversed .a m = [rising, falling, -rising, -falling].getD q 0 ∧
      coilValue isReversed .b m = (if isReversed then -1 else 1) * [falling, -rising, -falling, rising].getD q 0) ∧
  (∀ (s : State) (e : Emitter) (count : Nat),
    let on := (s.colour.emitters.get e).running
    (s.setup.readDone = false → s.emitterLevel e count = none) ∧
    (s.setup.readDone = true → count < on → s.emitterLevel e count = some (!s.settings.activeLow.get e)) ∧
    (s.setup.readDone = true → on ≤ count → s.emitterLevel e count = some (s.settings.activeLow.get e))) ∧
  ∀ (s : State) (x : Axis) (c : Coil) (count : Nat), s.settings.deadtime ≤ 63 → count < 1600 →
    let a := s.axes.get x
    let d := match c with
      | .a => a.coilA.running
      | .b => a.coilB.running
    let dead := s.settings.deadtime
    let drives := a.bridgeEnable = true ∧ a.mode ≠ .tripped ∧ a.live = true
    let reads := fun (w : Switches) => s.bridgeState x c count = some w
    (s.setup.readDone = false → s.bridgeState x c count = none) ∧
    (s.setup.readDone = true → ¬ drives → (s.settings.axes.get x).brake = false → reads .allOpen) ∧
    (s.setup.readDone = true → ¬ drives → (s.settings.axes.get x).brake = true → reads .lowClosed) ∧
    (s.setup.readDone = true → drives →
      (d.duty < 2 * dead → reads .lowClosed) ∧
      (1600 < d.duty + 2 * dead → reads (.drive d.negative)) ∧
      (2 * dead ≤ d.duty → d.duty + 2 * dead ≤ 1600 →
        (count < d.duty → reads (.drive d.negative)) ∧
        (d.duty ≤ count → count < d.duty + dead → reads .allOpen) ∧
        (d.duty + dead ≤ count → count + dead < 1600 → reads .lowClosed) ∧
        (d.duty + dead ≤ count → 1600 ≤ count + dead → reads .allOpen)))

/-- While the feed is TRIPPED or an axis is HOMING every emitter is dark, its preload and running on-count included: a step
from a state in which that holds leaves one in which it holds. -/
def Obligations.DarkWhileForced : Prop :=
  KeptByStep DarkWhenForced

/-! ### Axis drivers -/

/-- In READY a boundary sets the velocity by the follow limiter, moves the position by it, and gives lag, current, run flag,
a new walk and both preloads; the velocity changes by no more than the effective acceleration. With a slip pending the axis
goes on following until it is settled. A lag above 54000 is held as it is by the model's choice (log 39), and whether the lane is in FADE
is read from its record as it stands (log 42). -/
def Obligations.AxisFollows : Prop :=
  ∀ (s : State) (x : Axis) (b : Int) (rest : List Int), s.marks.axes.get x = b :: rest →
    (s.axes.get x).mode = .ready → (s.axes.get x).request ≠ some .slip →
    let st := s.settings.axes.get x
    let a := s.axes.get x
    let grant := s.feed.grant.get x
    let aEff : Int := (effectiveAccel st grant : Nat)
    let setpoint := s.positionAt x b
    let v := followed st grant a setpoint
    let y := a.carried v
    let runs := decide (v ≠ 0 ∨ s.play.pos.timing.state = .fade)
    (a.slipPending = true → v ≠ 0 ∨ y.pos16 ≠ setpoint * 16) →
    (v - a.v16 ≤ aEff ∧ a.v16 - v ≤ aEff) ∧
    exec (.axisBoundary x) s = .next
      (boundaryTaken s x rest
        { y with
          lag := some (setpoint - y.pos16 / 16).natAbs, current := some (if runs then grant else st.holdCurrent),
          running := runs })

/-- Boundaries move homing on: SEEK and BACKOFF ask for the homing speed downward and APPROACH, before its RISE, for an eighth
of it upward, each failing past 1.1 × the travel; APPROACH with its reference taken comes to rest, sets the count and goes to
RETURN; RETURN follows its lane and ends in READY once settled. In UNSURE, FAILED and TRIPPED the velocity runs down, whatever
START or ASK request waits. The order of these steps, and the lag absent at the boundary that ends RETURN, are the model's
choices (log 21), and so are a lag above 54000 held as it is (log 39) and a lane's FADE read from its record as it stands
(log 42). -/
def Obligations.HomingBoundaries : Prop :=
  ∀ (s : State) (x : Axis) (b : Int) (rest : List Int), s.marks.axes.get x = b :: rest →
    (s.axes.get x).request ≠ some .slip →
    let st := s.settings.axes.get x
    let a := s.axes.get x
    let grant := s.feed.grant.get x
    let aEff : Int := (effectiveAccel st grant : Nat)
    let setpoint := s.positionAt x b
    let toward := fun (aim : Int) => max (a.v16 - aEff) (min (a.v16 + aEff) aim)
    let isFar := fun (y : AxisState) => 11 * travel x < 10 * (y.pos16 / 16 - a.phaseEntry).natAbs
    let fails := fun (y : AxisState) =>
      exec (.axisBoundary x) s = .next
        ((boundaryTaken s x rest
          { y with
            mode := .failed, pass := none, lag := none, current := some (if y.v16 = 0 then st.holdCurrent else grant),
            running := decide (y.v16 ≠ 0) }).tallyAxis x
              fun k => { k with homingFailures := min (k.homingFailures + 1) 65535 })
    let phase := fun (aim : Int) =>
      let y := a.carried (toward aim)
      (isFar y → fails y) ∧
        (¬ isFar y → exec (.axisBoundary x) s = .next
          (boundaryTaken s x rest { y with lag := none, current := some grant, running := true }))
    (a.mode = .homing .seek → phase (-(16 * (st.homingSpeed : Nat) : Int))) ∧
    (a.mode = .homing .backoff → phase (-(16 * (st.homingSpeed : Nat) : Int))) ∧
    (a.mode = .homing .approach → a.reference = none → phase (2 * (st.homingSpeed : Nat))) ∧
    (∀ r, a.mode = .homing .approach → a.reference = some r → toward 0 ≠ 0 → phase 0) ∧
    (∀ r, a.mode = .homing .approach → a.reference = some r → toward 0 = 0 →
      let y := a.carried 0
      let d : Int := (st.risePos : Nat) - r
      let p := max (-134217728) (min 134217727 (y.pos16 + 16 * d))
      (isFar y → fails y) ∧
        (¬ isFar y → exec (.axisBoundary x) s = .next
          (boundaryTaken s x rest
            { y with
              mode := .homing .returning, pass := none, pos16 := p, output := a.output + d,
              walk := { origin := a.output + d, target := p / 16, walked := 0 }, phaseEntry := p / 16,
              lag := some (setpoint - p / 16).natAbs, current := some st.holdCurrent, running := false }))) ∧
    (a.mode = .homing .returning →
      let v := followed st grant a setpoint
      let y := a.carried v
      let runs := decide (v ≠ 0 ∨ s.play.pos.timing.state = .fade)
      ((v ≠ 0 ∨ y.pos16 ≠ setpoint * 16) → exec (.axisBoundary x) s = .next
        (boundaryTaken s x rest
          { y with
            lag := some (setpoint - y.pos16 / 16).natAbs, current := some (if runs then grant else st.holdCurrent),
            running := runs })) ∧
      (v = 0 → y.pos16 = setpoint * 16 → a.slipPending = false → exec (.axisBoundary x) s = .next
        ((boundaryTaken s x rest
          { y with
            mode := .ready, lag := none, current := some (if runs then grant else st.holdCurrent),
            running := runs }).tallyAxis x
              fun k => { k with homesCompleted := min (k.homesCompleted + 1) 65535 }))) ∧
    ((a.mode = .unsure ∨ a.mode = .failed) →
      let v := toward 0
      exec (.axisBoundary x) s = .next
        (boundaryTaken s x rest
          { a.carried v with
            lag := none, current := some (if v = 0 then st.holdCurrent else grant), running := decide (v ≠ 0) })) ∧
    (a.mode = .tripped →
      exec (.axisBoundary x) s = .next
        (boundaryTaken s x rest { a.carried (toward 0) with lag := none, current := none, running := false }))

/-- A pending slip is acted on at the boundary after whose update the axis is settled: UNSURE with a SLIP request, which begins
homing at the boundary with rehome-in-dark clear or INTENSITY reading 0, dousing the emitters, and otherwise waits for such a
boundary. That the dark test comes at the settling boundary itself is the model's choice (log 21). -/
def Obligations.SlipActedOn : Prop :=
  ∀ (s : State) (x : Axis) (b : Int) (rest : List Int), s.marks.axes.get x = b :: rest →
    let st := s.settings.axes.get x
    let a := s.axes.get x
    let grant := s.feed.grant.get x
    let aEff : Int := (effectiveAccel st grant : Nat)
    let setpoint := s.positionAt x b
    let v := if a.mode = .unsure then max (a.v16 - aEff) (min (a.v16 + aEff) 0) else followed st grant a setpoint
    let y := a.carried v
    let settles := (a.mode = .ready ∨ a.mode = .homing .returning) ∧ a.slipPending = true ∧ v = 0 ∧
      y.pos16 = setpoint * 16
    let waits := a.mode = .unsure ∧ a.request = some .slip
    let mayHome := st.rehomeInDark = false ∨ s.intensityAt b = 0
    let asked : AxisState :=
      if a.mode = .unsure then y
      else { y with mode := .unsure, slipPending := false, pass := none, request := some .slip }
    (settles ∨ waits) →
      (mayHome → ∃ t, exec (.axisBoundary x) s = .next t ∧ Doused s t ∧
        t = { (boundaryTaken s x rest { asked.homingBegun with current := some grant, running := true }).tallyAxis x
                (fun k => { k with homesBegun := min (k.homesBegun + 1) 65535 }) with
              colour := { s.colour with emitters := t.colour.emitters } }) ∧
      (¬ mayHome → exec (.axisBoundary x) s = .next
        (boundaryTaken s x rest
          { asked with
            lag := none, current := some (if v = 0 then st.holdCurrent else grant), running := decide (v ≠ 0) }))

/-- An overcurrent event of either coil of an enabled axis trips it: its duties fall to 0 at once, its pass, its pending slip
and a SLIP request are given up, and a trip is counted. Its run flag stands until the next boundary. That the current is none
at the instant of the trip, before that boundary, is read from R129 (log 22), and that a bridge driven but not yet by a PWM
period trips is log 40. -/
def Obligations.OvercurrentTrips : Prop :=
  ∀ (s : State) (x : Axis) (c : Coil),
    let a := s.axes.get x
    ((a.bridgeEnable = true ∧ a.mode ≠ .tripped) →
      exec (.overcurrentEvent x c) s = .next
        (({ s with
            axes := s.axes.set x
              { a with
                mode := .tripped, live := false, lag := none, current := none, pass := none,
                slipPending := false, request := if a.request = some .slip then none else a.request,
                coilA := { preload := { a.coilA.preload with duty := 0 }, running := { a.coilA.running with duty := 0 } },
                coilB := { preload := { a.coilB.preload with duty := 0 },
                           running := { a.coilB.running with duty := 0 } } } } : State).tallyAxis x
          fun k => { k with bridgeTrips := min (k.bridgeTrips + 1) 65535 })) ∧
    ((a.bridgeEnable = false ∨ a.mode = .tripped) → exec (.overcurrentEvent x c) s = .next s)

/-- A step keeps every axis's speed at or below 16 × its vmax, and keeps both axes standing with their bridges off until the
setup record has been read. -/
def Obligations.SpeedLimitKept : Prop :=
  KeptByStep SpeedHolds

/-- A HOME-ASK, each axis it names by itself: ignored and counted while the axis is HOMING; otherwise homing begins at once
with bridge enable set, dousing the emitters, and an UNSURE axis without it holds the request. An axis not named is left as it
is, and an empty axis set changes nothing. That an axis which was TRIPPED has no current until its next boundary is the model's
choice (log 43). -/
def Obligations.HomeAsk : Prop :=
  ∀ (s : State) (f : Frame), Taken s .homeAsk f →
    let names := fun x => (fieldAt f.payload 0 1).testBit (match x with
      | .pan => 0
      | .tilt => 1) = true
    let homes := fun x => ∃ p, (s.axes.get x).mode = .homing p
    let begins := fun x => names x ∧ ¬ homes x ∧ (s.axes.get x).bridgeEnable = true
    ((∀ x, ¬ names x) → exec (.homeAsk f) s = .next (s.heard f)) ∧
    ∃ t, exec (.homeAsk f) s = .next t ∧
      (∀ x,
        let a := s.axes.get x
        let y := t.axes.get x
        let k := s.stats.axes.get x
        (¬ names x → y = a ∧ t.stats.axes.get x = k) ∧
        (names x → homes x → y = a ∧
          t.stats.axes.get x = { k with homeAsksIgnored := s.counter k.homeAsksIgnored }) ∧
        (names x → ¬ homes x → a.bridgeEnable = false →
          y = (if a.mode = .unsure then { a with request := some .ask } else a) ∧ t.stats.axes.get x = k) ∧
        (begins x → y = a.homingBegun.preloaded (s.settings.axes.get x) ∧
          t.stats.axes.get x = { k with homesBegun := s.counter k.homesBegun })) ∧
      ((∃ x, begins x) → Doused s t) ∧ ((∀ x, ¬ begins x) → t.colour = s.colour) ∧
      t = { s with
        axes := t.axes, colour := { s.colour with emitters := t.colour.emitters },
        stats := { (s.heard f).stats with axes := t.stats.axes } }

/-! ### Sense Unit and index check -/

/-- A scan replaces the three held values by the conversions of the raw ones, with the trip-scan count and the next scan;
a count of 2 with the Feed Share Unit started trips the feed, its FEED-NOTE placed on a shared circuit, or extends a trip. That
the raw levels stay on the pins is the model's choice (log 5), and so is the pull of 1000 at the instant of the trip (R167 with
log 23). That a FEED-NOTE due at that instant as well stays owed is log 37. -/
def Obligations.SenseScan : Prop :=
  ∀ (s : State) (e d i : BitVec 12), s.sense.nextScan ≤ s.clock.thirds / 3000 →
    let up := s.clock.thirds / 3000
    let scans := if s.settings.tripLevel < 2 * i.toNat then min (s.sense.tripScans + 1) 2 else 0
    let sensed : State :=
      { s with
        pins := { s.pins with emitterRaw := e, driverRaw := d, feedRaw := i },
        sense := { emitterTemp := (e.toNat * 165 / 4096 : Nat) - 40, driverTemp := (d.toNat * 165 / 4096 : Nat) - 40,
                   feedCurrent := 2 * i.toNat, tripScans := scans, nextScan := s.sense.nextScan + 5 } }
    ((scans < 2 ∨ s.feed.started = false) → exec (.senseScan e d i) s = .next sensed) ∧
    (scans = 2 → s.feed.started = true → s.feed.tripEnd ≠ none →
      exec (.senseScan e d i) s = .next { sensed with feed := { s.feed with tripEnd := some (up + 1000) } }) ∧
    (scans = 2 → s.feed.started = true → s.feed.tripEnd = none →
      ∃ t, exec (.senseScan e d i) s = .next t ∧ Doused s t ∧
        t.feed =
          { s.feed with
            tripEnd := some (up + 1000), settling := none, belowSince := none, usage := s.settings.base,
            claim := if s.settings.circuit = 0 then s.feed.claim else s.settings.base, emitterDemand := 0, pull := 1000,
            grant := { pan := s.settings.axes.pan.holdCurrent, tilt := s.settings.axes.tilt.holdCurrent },
            nextNote := t.feed.nextNote, noteOwed := t.feed.noteOwed, enabling := t.feed.enabling } ∧
        FeedNotePlaced s t s.settings.base true false ∧
        t.stats.feed.feedTrips = s.counter s.stats.feed.feedTrips ∧ t.pins = sensed.pins ∧ t.sense = sensed.sense ∧
        t = { s with
          pins := t.pins, sense := t.sense, feed := t.feed, colour := { s.colour with emitters := t.colour.emitters },
          outbox := t.outbox, ports := t.ports, longestWait := t.longestWait, stats := t.stats })

/-- Raw temperatures read floor(raw × 165 / 4096) − 40 °C and a raw feed current raw × 2, whatever the values before. -/
def Obligations.SenseConversion : Prop :=
  ∀ (s : State) (e d i : BitVec 12), s.sense.nextScan ≤ s.clock.thirds / 3000 →
    ∃ t, exec (.senseScan e d i) s = .next t ∧ t.sense.emitterTemp = (e.toNat : Int) * 165 / 4096 - 40 ∧
      t.sense.driverTemp = (d.toNat : Int) * 165 / 4096 - 40 ∧ t.sense.feedCurrent = i.toNat * 2 ∧
      -40 ≤ t.sense.emitterTemp ∧ t.sense.emitterTemp ≤ 124 ∧ -40 ≤ t.sense.driverTemp ∧ t.sense.driverTemp ≤ 124 ∧
      t.sense.feedCurrent ≤ 8190

/-- An edge while the axis stands is not captured; a captured one is recorded and handled by the mode: held, judged as a
correction or a slip, or set aside as a vane fault by the index check, taken by a homing phase, or ignored. What an edge that is
not captured does to the pin is the model's choice (log 30). -/
def Obligations.IndexEdge : Prop :=
  ∀ (s : State) (x : Axis) (e : Edge),
    let a := s.axes.get x
    let st := s.settings.axes.get x
    let pinned : State := { s with pins := { s.pins with index := s.pins.index.set x (decide (e = .rise)) } }
    let down := decide (a.v16 < 0)
    let d := a.output - (if (e = .rise ↔ a.v16 < 0) then (st.fallPos : Int) else (st.risePos : Int))
    let captured := fun (o : CaptureOutcome) (y : AxisState) =>
      ({ pinned with
        axes := s.axes.set x
          { y with
            capture := some
              { edge := e, negative := down, microstep := a.output, deviation := d, mode := a.mode, outcome := o } } } :
        State)
    let checks := a.v16 ≠ 0 ∧ (a.mode = .ready ∨ a.mode = .homing .returning) ∧ a.slipPending = false
    let tooWide := ∃ p, a.pass = some p ∧ p.negative = down ∧
      st.vaneTolerance < (((a.output - p.microstep).natAbs : Int) - (st.fallPos - st.risePos : Nat)).natAbs
    let moved : AxisState :=
      { a with
        pass := none, pos16 := max (-134217728) (min 134217727 (a.pos16 - 16 * d)), output := a.output - d,
        walk := { a.walk with origin := a.walk.origin - d, target := a.walk.target - d } }
    let enter := fun (p : Phase) => { a with mode := .homing p, phaseEntry := a.pos16 / 16 }
    (a.v16 = 0 → exec (.indexEdge x e) s = .next pinned) ∧
    (checks → e = .rise →
      exec (.indexEdge x e) s = .next
        (captured .held { a with pass := some { negative := down, microstep := a.output, deviation := d } })) ∧
    (checks → e = .fall → tooWide →
      exec (.indexEdge x e) s = .next
        ((captured .vaneFault { a with pass := none }).tallyAxis x
          fun k => { k with vaneFaults := min (k.vaneFaults + 1) 65535 })) ∧
    (checks → e = .fall → ¬ tooWide → st.slipTolerance < d.natAbs →
      exec (.indexEdge x e) s = .next
        ((captured .slip { a with pass := none, slipPending := true }).tallyAxis x
          fun k => { k with slips := min (k.slips + 1) 65535 })) ∧
    (checks → e = .fall → ¬ tooWide → d.natAbs ≤ st.slipTolerance →
      exec (.indexEdge x e) s = .next
        ((captured .corrected (moved.rewrite st)).tallyAxis x
          fun k => if d = 0 then k else { k with corrections := min (k.corrections + 1) 65535 })) ∧
    (a.v16 ≠ 0 → (a.mode = .unsure ∨ a.mode = .failed ∨ a.mode = .tripped ∨
        ((a.mode = .ready ∨ a.mode = .homing .returning) ∧ a.slipPending = true)) →
      exec (.indexEdge x e) s = .next (captured .ignored a)) ∧
    (a.v16 ≠ 0 → a.mode = .homing .seek →
      exec (.indexEdge x e) s = .next (captured .phase (enter (if e = .rise then .backoff else .approach)))) ∧
    (a.v16 ≠ 0 → a.mode = .homing .backoff → e = .fall →
      exec (.indexEdge x e) s = .next (captured .phase (enter .approach))) ∧
    (a.v16 ≠ 0 → a.mode = .homing .approach → e = .rise → 0 < a.v16 → a.reference = none →
      exec (.indexEdge x e) s = .next (captured .phase { a with reference := some a.output })) ∧
    (a.v16 ≠ 0 → ((a.mode = .homing .backoff ∧ e = .rise) ∨
        (a.mode = .homing .approach ∧ (e = .fall ∨ a.v16 < 0 ∨ a.reference ≠ none))) →
      exec (.indexEdge x e) s = .next (captured .phase a))

/-! ### Feed Share Unit -/

/-- A boundary recomputes demand, allowance and driver hot; in NORMAL with nothing settling on a shared circuit it lowers a
claim above the demand for a note interval, or begins a raise, and places its FEED-NOTE; then it splits the usage. The Peer
Table answers the circuit sum with the claims and the number of the records on the circuit. That a note due at that instant
as well stays owed is log 37, and that a lane's FADE is read from its record as it stands is the model's choice (log 42). -/
def Obligations.FeedBoundary : Prop :=
  ∀ (s : State) (b : Int) (rest : List Int), s.marks.feed = b :: rest → 1 ≤ s.settings.noteInterval →
    let st := s.settings
    let f := s.feed
    let up := s.clock.thirds / 3000
    let runs := fun x => (s.axes.get x).running = true ∨ s.play.pos.timing.state = .fade
    let drive := fun e => st.fullDrive.get e * (s.colour.emitters.get e).unpulled
    let emitters := (drive .red + drive .green + drive .blue + drive .white + 65535) / 65536
    let draw := fun x current => (runs x → current = (st.axes.get x).runCurrent) ∧
      (¬ runs x → current = (st.axes.get x).holdCurrent)
    let may := f.started = true ∧ f.tripEnd = none ∧ f.settling = none ∧ st.circuit ≠ 0
    let counted := (s.peers.filterMap fun r => r.feedPart).filter fun m => m.circuit = st.circuit
    let claims := (counted.map fun m => m.claim).sum
    circuitAnswer s.peers st.circuit = { sum := claims, count := counted.length } ∧
    ∃ t, exec .feedBoundary s = .next t ∧
      (∃ pan tilt, draw .pan pan ∧ draw .tilt tilt ∧ t.feed.demand = st.standby + pan + tilt + emitters) ∧
      (∀ x, t.feed.counted.get x = true ↔ runs x) ∧
      t.feed.emitterDemand = emitters ∧ t.feed.driverHot = decide (st.driverLimit < s.sense.driverTemp) ∧
      t.feed.allowance = (if st.circuit = 0 then st.limit else max st.floorShare (st.limit - claims)) ∧
      (¬ may → t.feed.claim = f.claim ∧ t.feed.usage = f.usage ∧ t.feed.settling = f.settling ∧
        t.feed.belowSince = f.belowSince ∧ NoFeedNote s t) ∧
      (may → t.feed.demand < f.claim → (∀ since, f.belowSince = some since → up < since + st.noteInterval) →
        t.feed.claim = f.claim ∧ t.feed.usage = f.usage ∧ t.feed.settling = none ∧
          t.feed.belowSince = some (f.belowSince.getD up) ∧ NoFeedNote s t) ∧
      (∀ since, may → t.feed.demand < f.claim → f.belowSince = some since → since + st.noteInterval ≤ up →
        t.feed.claim = t.feed.demand ∧ t.feed.usage = t.feed.demand ∧ t.feed.settling = none ∧
          t.feed.belowSince = none ∧ t.stats.feed.lowers = s.counter s.stats.feed.lowers ∧
          FeedNotePlaced s t t.feed.demand false false) ∧
      (may → f.claim < t.feed.demand → f.claim < t.feed.allowance →
        t.feed.claim = f.claim + min (t.feed.demand - f.claim) (max 1 ((t.feed.allowance - f.claim + 1) / 2)) ∧
          t.feed.usage = f.usage ∧ t.feed.settling = some { claim := f.claim, endTime := up + 2 * st.noteInterval } ∧
          t.feed.belowSince = none ∧ t.stats.feed.raises = s.counter s.stats.feed.raises ∧
          FeedNotePlaced s t t.feed.claim false true) ∧
      (may → f.claim ≤ t.feed.demand → (t.feed.demand = f.claim ∨ t.feed.allowance ≤ f.claim) →
        t.feed.claim = f.claim ∧ t.feed.usage = f.usage ∧ t.feed.settling = none ∧ t.feed.belowSince = none ∧
          NoFeedNote s t) ∧
      t.feed.pull = (t.feed.split st).pull ∧ t.feed.grant = (t.feed.split st).grant ∧
      t.feed.started = f.started ∧ t.feed.tripEnd = f.tripEnd ∧
      t.stats.feed.driverHotEntries =
        (if t.feed.driverHot = true ∧ f.driverHot = false then s.counter s.stats.feed.driverHotEntries
        else s.stats.feed.driverHotEntries) ∧
      t = { s with
        marks := { s.marks with feed := rest }, feed := t.feed, stats := t.stats, outbox := t.outbox, ports := t.ports,
        longestWait := t.longestWait }

/-- The split of a usage: the emitters' whole demand first, then the axes the demand counted at run current, then the
others; hold current alone while the driver is hot or the feed TRIPPED. -/
def Obligations.FeedSplit : Prop :=
  ∀ (f : Feed) (st : Settings),
    let share := min f.emitterDemand (f.usage - st.base)
    let pool := f.usage - st.base - share
    let ask := fun x => (st.axes.get x).runCurrent - (st.axes.get x).holdCurrent
    let got := fun x => (f.split st).grant.get x - (st.axes.get x).holdCurrent
    let cool := f.driverHot = false ∧ f.tripEnd = none
    (f.emitterDemand = 0 → (f.split st).pull = 1000) ∧
    (0 < f.emitterDemand → (f.split st).pull = share * 1000 / f.emitterDemand ∧ (f.split st).pull ≤ 1000) ∧
    (¬ cool → ∀ x, (f.split st).grant.get x = (st.axes.get x).holdCurrent) ∧
    (∀ x, (st.axes.get x).holdCurrent ≤ (f.split st).grant.get x) ∧
    (cool → ask .pan + ask .tilt ≤ pool → ∀ x, got x = ask x) ∧
    (cool → f.counted.pan = f.counted.tilt → pool < ask .pan + ask .tilt →
      ∀ x, got x = pool * ask x / (ask .pan + ask .tilt)) ∧
    (cool → f.counted.pan = true → f.counted.tilt = false →
      got .pan = min (ask .pan) pool ∧ got .tilt = min (ask .tilt) (pool - ask .pan)) ∧
    (cool → f.counted.pan = false → f.counted.tilt = true →
      got .tilt = min (ask .tilt) pool ∧ got .pan = min (ask .pan) (pool - ask .tilt)) ∧
    got .pan + got .tilt ≤ pool ∧
    f.split st = { f with pull := (f.split st).pull, grant := (f.split st).grant }

/-- A raise settles at its settle end time: claim and usage are cut to the allowance of that instant. A trip ends at its
trip end time: NORMAL, the usage the base, or the limit on circuit 0. Each splits anew and, on a shared circuit, places a
FEED-NOTE of its claim and flags. That one due at that instant as well stays owed is log 37. -/
def Obligations.FeedTimes : Prop :=
  ∀ s : State,
    let st := s.settings
    let up := s.clock.thirds / 3000
    let counted := (s.peers.filterMap fun r => r.feedPart).filter fun m => m.circuit = st.circuit
    let allowance :=
      if st.circuit = 0 then st.limit else max st.floorShare (st.limit - (counted.map fun m => m.claim).sum)
    let notes := fun (t : State) (f : Feed) =>
      { f with nextNote := t.feed.nextNote, noteOwed := t.feed.noteOwed, enabling := t.feed.enabling }
    let frame := fun (t : State) =>
      t = { s with
        feed := t.feed, stats := { s.stats with feed := t.stats.feed }, outbox := t.outbox, ports := t.ports,
        longestWait := t.longestWait }
    (∀ x, s.feed.settling = some x → x.endTime ≤ up →
      ∃ t, exec .settleEnd s = .next t ∧ t.feed.claim = min s.feed.claim allowance ∧
        t.feed.usage = min s.feed.claim allowance ∧ t.feed.allowance = allowance ∧ t.feed.settling = none ∧
        t.feed.pull = (t.feed.split st).pull ∧ t.feed.grant = (t.feed.split st).grant ∧
        t.stats.feed.raisesCut =
          (if allowance < s.feed.claim then s.counter s.stats.feed.raisesCut else s.stats.feed.raisesCut) ∧
        t.feed = notes t { s.feed with
          claim := t.feed.claim, usage := t.feed.usage, allowance := t.feed.allowance, settling := none,
          pull := t.feed.pull, grant := t.feed.grant } ∧
        FeedNotePlaced s t t.feed.claim s.feed.tripEnd.isSome false ∧ frame t) ∧
    (∀ n, s.feed.tripEnd = some n → n ≤ up →
      ∃ t, exec .tripEnd s = .next t ∧ t.feed.tripEnd = none ∧ t.feed.belowSince = none ∧
        (st.circuit ≠ 0 → t.feed.claim = st.base ∧ t.feed.usage = st.base) ∧
        (st.circuit = 0 → t.feed.claim = s.feed.claim ∧ t.feed.usage = st.limit) ∧
        t.feed.pull = (t.feed.split st).pull ∧ t.feed.grant = (t.feed.split st).grant ∧
        t.feed = notes t { s.feed with
          claim := t.feed.claim, usage := t.feed.usage, tripEnd := none, belowSince := none, pull := t.feed.pull,
          grant := t.feed.grant } ∧
        FeedNotePlaced s t t.feed.claim false s.feed.settling.isSome ∧ frame t)

/-- A step keeps the usage between the base and the claim on a shared circuit and each grant between hold and run current;
and it keeps R at or below A, the unpulled duty at or below 65536, the driven duty at or below it, each schedule that of its
duty, and the pull factors at or below 1000. -/
def Obligations.FeedAndColourBoundsKept : Prop :=
  KeptByStep FeedHolds ∧ KeptByStep ColourHolds

/-! ### Setup Store and start-up -/

/-- The read completes 1 ms after the reset: an unconfigured station takes the defaults and no more; a configured one takes
its settings, each corrected where the record has it out of range, places its first BEACON and starts its Feed Share Unit with
the claim the base, placing its first FEED-NOTE, or on circuit 0 the limit (log 24). Once that note has been freed, at once with
no port UP (log 27), bridge enable is set on both axes and their START and ASK requests begin homing. The byte offsets of the
record are the model's choice (log 36), and so are park brought within the travel (log 25) and a driver limit below −40 °C taken
as it is (log 38). -/
def Obligations.StartUp : Prop :=
  (∀ s : State, s.setup.readDone = false → s.pins.resetHeld = false → 1 ≤ s.clock.thirds / 3000 →
    let byte := fun a => s.storeByte a
    let configures := byte 0 = 0xA5 ∧ byte 1 = 0xC3 ∧ 1 ≤ (byte 10).toNat ∧ (byte 10).toNat ≤ 250
    (¬ configures →
      exec .setupReadComplete s = .next
        { s with
          settings := State.reset.settings, play := State.reset.play,
          colour := { State.reset.colour with nextPeriod := s.colour.nextPeriod }, feed := State.reset.feed,
          setup := { s.setup with readDone := true, configured := false, counting := true } }) ∧
    (configures →
      ∃ st m t, exec .setupReadComplete s = .next t ∧ RecordGives byte st ∧ BeaconEntered (startingWith s st) m ∧
        m = { startingWith s st with outbox := m.outbox, ports := m.ports } ∧ FeedNotePlaced m t st.base false false ∧
        t = { m with
          feed := { m.feed with nextNote := t.feed.nextNote, noteOwed := t.feed.noteOwed, enabling := t.feed.enabling },
          stats := { m.stats with feed := { m.stats.feed with notesPlaced := t.stats.feed.notesPlaced } },
          outbox := t.outbox, ports := t.ports, longestWait := t.longestWait })) ∧
  (∀ s : State, s.feed.enabling = .due →
    let homes := fun x => (s.axes.get x).request = some .start ∨ (s.axes.get x).request = some .ask
    ∃ t, exec .bridgeEnable s = .next t ∧
      (∀ x,
        let a := { s.axes.get x with bridgeEnable := true }
        let st := s.settings.axes.get x
        let k := s.stats.axes.get x
        (homes x → t.axes.get x = a.homingBegun.preloaded st ∧
          t.stats.axes.get x = { k with homesBegun := s.counter k.homesBegun }) ∧
        (¬ homes x → t.axes.get x = a.preloaded st ∧ t.stats.axes.get x = k)) ∧
      ((∃ x, homes x) → Doused s t) ∧ ((∀ x, ¬ homes x) → t.colour = s.colour) ∧
      t = { s with
        feed := { s.feed with enabling := .done }, axes := t.axes,
        colour := { s.colour with emitters := t.colour.emitters }, stats := { s.stats with axes := t.stats.axes } })

/-- A SETUP whose serial is the part's and whose page is 0 to 7 writes its page while the SETUP line is held or the station
is unconfigured, the serial's own bytes apart; any other is ignored. Neither changes the settings in force. -/
def Obligations.SetupPage : Prop :=
  ∀ (s : State) (f : Frame), StoreHolds s → s.setup.readDone = true → RightSize .setup f →
    (Addressed s f ∨ (s.setup.configured = false ∧ 1 ≤ f.origin.toNat ∧ f.origin.toNat ≤ 250 ∧ f.dest.toNat = 255 ∧
      s.settings.station = 0)) →
    let page := fieldAt f.payload 8 1
    let writes := f.payload.take 8 = serialBytes ∧ page ≤ 7 ∧ (s.pins.setupLine = true ∨ s.setup.configured = false)
    (writes →
      ∃ t, exec (.setup f) s = .next t ∧
        (∀ i, i < 32 → (page ≠ 0 ∨ i < 2 ∨ 10 ≤ i) → t.storeByte (32 * page + i) = f.payload.getD (9 + i) 0) ∧
        (∀ i, 2 ≤ i → i < 10 → t.storeByte i = s.storeByte i) ∧
        (∀ a, a < 32 * page ∨ 32 * page + 32 ≤ a → t.storeByte a = s.storeByte a) ∧
        t = { (s.heard f).tallySetup (fun k => { k with written := min (k.written + 1) 65535 }) with
          store := t.store }) ∧
    (¬ writes →
      exec (.setup f) s = .next ((s.heard f).tallySetup fun k => { k with ignored := min (k.ignored + 1) 65535 }))

/-- A STATUS-ASK of page 0 to 2 places a STATUS-REPLY to its origin, of the page, its next part and what that part reports, and
moves the page's rotation on, and building page 1 part 0 sets the longest outbox wait to 0; then COUNT ON alone, COUNT OFF alone
and CLEAR take effect, and of another page only they. That the content is taken once the ask itself has been counted is the
model's choice (log 4), and so are the field forms (log 28). -/
def Obligations.StatusAsk : Prop :=
  ∀ (s : State) (f : Frame), Taken s .statusAsk f →
    let n := fieldAt f.payload 0 1
    let flag := fun i => (fieldAt f.payload 1 1).testBit i
    let counting :=
      if flag 0 ∧ ¬ flag 1 then true else if flag 1 ∧ ¬ flag 0 then false else s.setup.counting
    let stats := if flag 2 then Stats.zero else (s.heard f).stats
    ∃ t, exec (.statusAsk f) s = .next t ∧
      (2 < n →
        t = { s with
          setup := { s.setup with counting := counting }, stats := stats,
          longestWait := if flag 2 then 0 else s.longestWait }) ∧
      ∀ p, statusPageOf n = some p →
        let part := s.nextPart p
        let reset : State := { s with longestWait := if n = 1 ∧ part = 0 then 0 else s.longestWait }
        t.nextPart p = (if part + 1 < (if n = 1 then 2 else 3) then part + 1 else 0) ∧
        (∀ q, q ≠ p → t.nextPart q = s.nextPart q) ∧
        ∃ content m,
          FieldsRead content ([(1, (n : Int)), (1, (part : Int))] ++ reported (s.heard f) n part) ∧
          content = statusField 1 n ++ statusField 1 part ++ (s.heard f).partContent p part ∧
          NotePlaced reset m .statusReply f.origin content ∧
          t = { s with
            setup := { s.setup with
              counting := counting, nextPart0 := t.setup.nextPart0, nextPart1 := t.setup.nextPart1,
              nextPart2 := t.setup.nextPart2 },
            stats := stats, longestWait := if flag 2 then 0 else m.longestWait, ports := m.ports, outbox := m.outbox }

/-! ### The whole block -/

/-- An unconfigured station keeps the defaults, a FREE clock, empty tables, no note and no start, and both axes UNSURE with
their bridges off and START requests waiting, and no station is configured before its record has been read: a step from a
state in which that holds leaves one in which it holds. -/
def Obligations.UnconfiguredStaysQuiet : Prop :=
  KeptByStep QuietWhenUnconfigured

/-- Every invariant stated of a step holds of the state after reset. -/
def Obligations.InvariantsHoldAtReset : Prop :=
  FifosHold State.reset ∧ ShowTimeInRange State.reset ∧ PeersHold State.reset ∧ CuesHold State.reset ∧
    DarkWhenForced State.reset ∧ ColourHolds State.reset ∧ SpeedHolds State.reset ∧ FeedHolds State.reset ∧
    StoreHolds State.reset ∧ QuietWhenUnconfigured State.reset
end

