-- ==== Sys2Proof/Laws/State.lean ====
section
/-! SUPPORT. One lemma for each field after each update of the state: what an update leaves and what it replaces. -/

namespace Sys2Proof.Machine

variable (s : State)

/-! ### `withClock` -/

@[simp] theorem State.withClock_clock (x : Clock) : (s.withClock x).clock = x := rfl
@[simp] theorem State.withClock_marks (x : Clock) : (s.withClock x).marks = s.marks := rfl
@[simp] theorem State.withClock_ports (x : Clock) : (s.withClock x).ports = s.ports := rfl
@[simp] theorem State.withClock_outbox (x : Clock) : (s.withClock x).outbox = s.outbox := rfl
@[simp] theorem State.withClock_longestWait (x : Clock) : (s.withClock x).longestWait = s.longestWait := rfl
@[simp] theorem State.withClock_peers (x : Clock) : (s.withClock x).peers = s.peers := rfl
@[simp] theorem State.withClock_cues (x : Clock) : (s.withClock x).cues = s.cues := rfl
@[simp] theorem State.withClock_play (x : Clock) : (s.withClock x).play = s.play := rfl
@[simp] theorem State.withClock_colour (x : Clock) : (s.withClock x).colour = s.colour := rfl
@[simp] theorem State.withClock_axes (x : Clock) : (s.withClock x).axes = s.axes := rfl
@[simp] theorem State.withClock_bridgeNext (x : Clock) : (s.withClock x).bridgeNext = s.bridgeNext := rfl
@[simp] theorem State.withClock_sense (x : Clock) : (s.withClock x).sense = s.sense := rfl
@[simp] theorem State.withClock_feed (x : Clock) : (s.withClock x).feed = s.feed := rfl
@[simp] theorem State.withClock_store (x : Clock) : (s.withClock x).store = s.store := rfl
@[simp] theorem State.withClock_settings (x : Clock) : (s.withClock x).settings = s.settings := rfl
@[simp] theorem State.withClock_setup (x : Clock) : (s.withClock x).setup = s.setup := rfl
@[simp] theorem State.withClock_stats (x : Clock) : (s.withClock x).stats = s.stats := rfl
@[simp] theorem State.withClock_pins (x : Clock) : (s.withClock x).pins = s.pins := rfl
@[simp] theorem State.withClock_pending (x : Clock) : (s.withClock x).pending = s.pending := rfl

/-! ### `withMarks` -/

@[simp] theorem State.withMarks_clock (x : Marks) : (s.withMarks x).clock = s.clock := rfl
@[simp] theorem State.withMarks_marks (x : Marks) : (s.withMarks x).marks = x := rfl
@[simp] theorem State.withMarks_ports (x : Marks) : (s.withMarks x).ports = s.ports := rfl
@[simp] theorem State.withMarks_outbox (x : Marks) : (s.withMarks x).outbox = s.outbox := rfl
@[simp] theorem State.withMarks_longestWait (x : Marks) : (s.withMarks x).longestWait = s.longestWait := rfl
@[simp] theorem State.withMarks_peers (x : Marks) : (s.withMarks x).peers = s.peers := rfl
@[simp] theorem State.withMarks_cues (x : Marks) : (s.withMarks x).cues = s.cues := rfl
@[simp] theorem State.withMarks_play (x : Marks) : (s.withMarks x).play = s.play := rfl
@[simp] theorem State.withMarks_colour (x : Marks) : (s.withMarks x).colour = s.colour := rfl
@[simp] theorem State.withMarks_axes (x : Marks) : (s.withMarks x).axes = s.axes := rfl
@[simp] theorem State.withMarks_bridgeNext (x : Marks) : (s.withMarks x).bridgeNext = s.bridgeNext := rfl
@[simp] theorem State.withMarks_sense (x : Marks) : (s.withMarks x).sense = s.sense := rfl
@[simp] theorem State.withMarks_feed (x : Marks) : (s.withMarks x).feed = s.feed := rfl
@[simp] theorem State.withMarks_store (x : Marks) : (s.withMarks x).store = s.store := rfl
@[simp] theorem State.withMarks_settings (x : Marks) : (s.withMarks x).settings = s.settings := rfl
@[simp] theorem State.withMarks_setup (x : Marks) : (s.withMarks x).setup = s.setup := rfl
@[simp] theorem State.withMarks_stats (x : Marks) : (s.withMarks x).stats = s.stats := rfl
@[simp] theorem State.withMarks_pins (x : Marks) : (s.withMarks x).pins = s.pins := rfl
@[simp] theorem State.withMarks_pending (x : Marks) : (s.withMarks x).pending = s.pending := rfl

/-! ### `withPorts` -/

@[simp] theorem State.withPorts_clock (x : PerPort PortState) : (s.withPorts x).clock = s.clock := rfl
@[simp] theorem State.withPorts_marks (x : PerPort PortState) : (s.withPorts x).marks = s.marks := rfl
@[simp] theorem State.withPorts_ports (x : PerPort PortState) : (s.withPorts x).ports = x := rfl
@[simp] theorem State.withPorts_outbox (x : PerPort PortState) : (s.withPorts x).outbox = s.outbox := rfl
@[simp] theorem State.withPorts_longestWait (x : PerPort PortState) : (s.withPorts x).longestWait = s.longestWait := rfl
@[simp] theorem State.withPorts_peers (x : PerPort PortState) : (s.withPorts x).peers = s.peers := rfl
@[simp] theorem State.withPorts_cues (x : PerPort PortState) : (s.withPorts x).cues = s.cues := rfl
@[simp] theorem State.withPorts_play (x : PerPort PortState) : (s.withPorts x).play = s.play := rfl
@[simp] theorem State.withPorts_colour (x : PerPort PortState) : (s.withPorts x).colour = s.colour := rfl
@[simp] theorem State.withPorts_axes (x : PerPort PortState) : (s.withPorts x).axes = s.axes := rfl
@[simp] theorem State.withPorts_bridgeNext (x : PerPort PortState) : (s.withPorts x).bridgeNext = s.bridgeNext := rfl
@[simp] theorem State.withPorts_sense (x : PerPort PortState) : (s.withPorts x).sense = s.sense := rfl
@[simp] theorem State.withPorts_feed (x : PerPort PortState) : (s.withPorts x).feed = s.feed := rfl
@[simp] theorem State.withPorts_store (x : PerPort PortState) : (s.withPorts x).store = s.store := rfl
@[simp] theorem State.withPorts_settings (x : PerPort PortState) : (s.withPorts x).settings = s.settings := rfl
@[simp] theorem State.withPorts_setup (x : PerPort PortState) : (s.withPorts x).setup = s.setup := rfl
@[simp] theorem State.withPorts_stats (x : PerPort PortState) : (s.withPorts x).stats = s.stats := rfl
@[simp] theorem State.withPorts_pins (x : PerPort PortState) : (s.withPorts x).pins = s.pins := rfl
@[simp] theorem State.withPorts_pending (x : PerPort PortState) : (s.withPorts x).pending = s.pending := rfl

/-! ### `withOutbox` -/

@[simp] theorem State.withOutbox_clock (x : Outbox) : (s.withOutbox x).clock = s.clock := rfl
@[simp] theorem State.withOutbox_marks (x : Outbox) : (s.withOutbox x).marks = s.marks := rfl
@[simp] theorem State.withOutbox_ports (x : Outbox) : (s.withOutbox x).ports = s.ports := rfl
@[simp] theorem State.withOutbox_outbox (x : Outbox) : (s.withOutbox x).outbox = x := rfl
@[simp] theorem State.withOutbox_longestWait (x : Outbox) : (s.withOutbox x).longestWait = s.longestWait := rfl
@[simp] theorem State.withOutbox_peers (x : Outbox) : (s.withOutbox x).peers = s.peers := rfl
@[simp] theorem State.withOutbox_cues (x : Outbox) : (s.withOutbox x).cues = s.cues := rfl
@[simp] theorem State.withOutbox_play (x : Outbox) : (s.withOutbox x).play = s.play := rfl
@[simp] theorem State.withOutbox_colour (x : Outbox) : (s.withOutbox x).colour = s.colour := rfl
@[simp] theorem State.withOutbox_axes (x : Outbox) : (s.withOutbox x).axes = s.axes := rfl
@[simp] theorem State.withOutbox_bridgeNext (x : Outbox) : (s.withOutbox x).bridgeNext = s.bridgeNext := rfl
@[simp] theorem State.withOutbox_sense (x : Outbox) : (s.withOutbox x).sense = s.sense := rfl
@[simp] theorem State.withOutbox_feed (x : Outbox) : (s.withOutbox x).feed = s.feed := rfl
@[simp] theorem State.withOutbox_store (x : Outbox) : (s.withOutbox x).store = s.store := rfl
@[simp] theorem State.withOutbox_settings (x : Outbox) : (s.withOutbox x).settings = s.settings := rfl
@[simp] theorem State.withOutbox_setup (x : Outbox) : (s.withOutbox x).setup = s.setup := rfl
@[simp] theorem State.withOutbox_stats (x : Outbox) : (s.withOutbox x).stats = s.stats := rfl
@[simp] theorem State.withOutbox_pins (x : Outbox) : (s.withOutbox x).pins = s.pins := rfl
@[simp] theorem State.withOutbox_pending (x : Outbox) : (s.withOutbox x).pending = s.pending := rfl

/-! ### `withLongestWait` -/

@[simp] theorem State.withLongestWait_clock (x : Nat) : (s.withLongestWait x).clock = s.clock := rfl
@[simp] theorem State.withLongestWait_marks (x : Nat) : (s.withLongestWait x).marks = s.marks := rfl
@[simp] theorem State.withLongestWait_ports (x : Nat) : (s.withLongestWait x).ports = s.ports := rfl
@[simp] theorem State.withLongestWait_outbox (x : Nat) : (s.withLongestWait x).outbox = s.outbox := rfl
@[simp] theorem State.withLongestWait_longestWait (x : Nat) : (s.withLongestWait x).longestWait = x := rfl
@[simp] theorem State.withLongestWait_peers (x : Nat) : (s.withLongestWait x).peers = s.peers := rfl
@[simp] theorem State.withLongestWait_cues (x : Nat) : (s.withLongestWait x).cues = s.cues := rfl
@[simp] theorem State.withLongestWait_play (x : Nat) : (s.withLongestWait x).play = s.play := rfl
@[simp] theorem State.withLongestWait_colour (x : Nat) : (s.withLongestWait x).colour = s.colour := rfl
@[simp] theorem State.withLongestWait_axes (x : Nat) : (s.withLongestWait x).axes = s.axes := rfl
@[simp] theorem State.withLongestWait_bridgeNext (x : Nat) : (s.withLongestWait x).bridgeNext = s.bridgeNext := rfl
@[simp] theorem State.withLongestWait_sense (x : Nat) : (s.withLongestWait x).sense = s.sense := rfl
@[simp] theorem State.withLongestWait_feed (x : Nat) : (s.withLongestWait x).feed = s.feed := rfl
@[simp] theorem State.withLongestWait_store (x : Nat) : (s.withLongestWait x).store = s.store := rfl
@[simp] theorem State.withLongestWait_settings (x : Nat) : (s.withLongestWait x).settings = s.settings := rfl
@[simp] theorem State.withLongestWait_setup (x : Nat) : (s.withLongestWait x).setup = s.setup := rfl
@[simp] theorem State.withLongestWait_stats (x : Nat) : (s.withLongestWait x).stats = s.stats := rfl
@[simp] theorem State.withLongestWait_pins (x : Nat) : (s.withLongestWait x).pins = s.pins := rfl
@[simp] theorem State.withLongestWait_pending (x : Nat) : (s.withLongestWait x).pending = s.pending := rfl

/-! ### `withPeers` -/

@[simp] theorem State.withPeers_clock (x : List PeerRecord) : (s.withPeers x).clock = s.clock := rfl
@[simp] theorem State.withPeers_marks (x : List PeerRecord) : (s.withPeers x).marks = s.marks := rfl
@[simp] theorem State.withPeers_ports (x : List PeerRecord) : (s.withPeers x).ports = s.ports := rfl
@[simp] theorem State.withPeers_outbox (x : List PeerRecord) : (s.withPeers x).outbox = s.outbox := rfl
@[simp] theorem State.withPeers_longestWait (x : List PeerRecord) : (s.withPeers x).longestWait = s.longestWait := rfl
@[simp] theorem State.withPeers_peers (x : List PeerRecord) : (s.withPeers x).peers = x := rfl
@[simp] theorem State.withPeers_cues (x : List PeerRecord) : (s.withPeers x).cues = s.cues := rfl
@[simp] theorem State.withPeers_play (x : List PeerRecord) : (s.withPeers x).play = s.play := rfl
@[simp] theorem State.withPeers_colour (x : List PeerRecord) : (s.withPeers x).colour = s.colour := rfl
@[simp] theorem State.withPeers_axes (x : List PeerRecord) : (s.withPeers x).axes = s.axes := rfl
@[simp] theorem State.withPeers_bridgeNext (x : List PeerRecord) : (s.withPeers x).bridgeNext = s.bridgeNext := rfl
@[simp] theorem State.withPeers_sense (x : List PeerRecord) : (s.withPeers x).sense = s.sense := rfl
@[simp] theorem State.withPeers_feed (x : List PeerRecord) : (s.withPeers x).feed = s.feed := rfl
@[simp] theorem State.withPeers_store (x : List PeerRecord) : (s.withPeers x).store = s.store := rfl
@[simp] theorem State.withPeers_settings (x : List PeerRecord) : (s.withPeers x).settings = s.settings := rfl
@[simp] theorem State.withPeers_setup (x : List PeerRecord) : (s.withPeers x).setup = s.setup := rfl
@[simp] theorem State.withPeers_stats (x : List PeerRecord) : (s.withPeers x).stats = s.stats := rfl
@[simp] theorem State.withPeers_pins (x : List PeerRecord) : (s.withPeers x).pins = s.pins := rfl
@[simp] theorem State.withPeers_pending (x : List PeerRecord) : (s.withPeers x).pending = s.pending := rfl

/-! ### `withCues` -/

@[simp] theorem State.withCues_clock (x : CueStore) : (s.withCues x).clock = s.clock := rfl
@[simp] theorem State.withCues_marks (x : CueStore) : (s.withCues x).marks = s.marks := rfl
@[simp] theorem State.withCues_ports (x : CueStore) : (s.withCues x).ports = s.ports := rfl
@[simp] theorem State.withCues_outbox (x : CueStore) : (s.withCues x).outbox = s.outbox := rfl
@[simp] theorem State.withCues_longestWait (x : CueStore) : (s.withCues x).longestWait = s.longestWait := rfl
@[simp] theorem State.withCues_peers (x : CueStore) : (s.withCues x).peers = s.peers := rfl
@[simp] theorem State.withCues_cues (x : CueStore) : (s.withCues x).cues = x := rfl
@[simp] theorem State.withCues_play (x : CueStore) : (s.withCues x).play = s.play := rfl
@[simp] theorem State.withCues_colour (x : CueStore) : (s.withCues x).colour = s.colour := rfl
@[simp] theorem State.withCues_axes (x : CueStore) : (s.withCues x).axes = s.axes := rfl
@[simp] theorem State.withCues_bridgeNext (x : CueStore) : (s.withCues x).bridgeNext = s.bridgeNext := rfl
@[simp] theorem State.withCues_sense (x : CueStore) : (s.withCues x).sense = s.sense := rfl
@[simp] theorem State.withCues_feed (x : CueStore) : (s.withCues x).feed = s.feed := rfl
@[simp] theorem State.withCues_store (x : CueStore) : (s.withCues x).store = s.store := rfl
@[simp] theorem State.withCues_settings (x : CueStore) : (s.withCues x).settings = s.settings := rfl
@[simp] theorem State.withCues_setup (x : CueStore) : (s.withCues x).setup = s.setup := rfl
@[simp] theorem State.withCues_stats (x : CueStore) : (s.withCues x).stats = s.stats := rfl
@[simp] theorem State.withCues_pins (x : CueStore) : (s.withCues x).pins = s.pins := rfl
@[simp] theorem State.withCues_pending (x : CueStore) : (s.withCues x).pending = s.pending := rfl

/-! ### `withPlay` -/

@[simp] theorem State.withPlay_clock (x : Playback) : (s.withPlay x).clock = s.clock := rfl
@[simp] theorem State.withPlay_marks (x : Playback) : (s.withPlay x).marks = s.marks := rfl
@[simp] theorem State.withPlay_ports (x : Playback) : (s.withPlay x).ports = s.ports := rfl
@[simp] theorem State.withPlay_outbox (x : Playback) : (s.withPlay x).outbox = s.outbox := rfl
@[simp] theorem State.withPlay_longestWait (x : Playback) : (s.withPlay x).longestWait = s.longestWait := rfl
@[simp] theorem State.withPlay_peers (x : Playback) : (s.withPlay x).peers = s.peers := rfl
@[simp] theorem State.withPlay_cues (x : Playback) : (s.withPlay x).cues = s.cues := rfl
@[simp] theorem State.withPlay_play (x : Playback) : (s.withPlay x).play = x := rfl
@[simp] theorem State.withPlay_colour (x : Playback) : (s.withPlay x).colour = s.colour := rfl
@[simp] theorem State.withPlay_axes (x : Playback) : (s.withPlay x).axes = s.axes := rfl
@[simp] theorem State.withPlay_bridgeNext (x : Playback) : (s.withPlay x).bridgeNext = s.bridgeNext := rfl
@[simp] theorem State.withPlay_sense (x : Playback) : (s.withPlay x).sense = s.sense := rfl
@[simp] theorem State.withPlay_feed (x : Playback) : (s.withPlay x).feed = s.feed := rfl
@[simp] theorem State.withPlay_store (x : Playback) : (s.withPlay x).store = s.store := rfl
@[simp] theorem State.withPlay_settings (x : Playback) : (s.withPlay x).settings = s.settings := rfl
@[simp] theorem State.withPlay_setup (x : Playback) : (s.withPlay x).setup = s.setup := rfl
@[simp] theorem State.withPlay_stats (x : Playback) : (s.withPlay x).stats = s.stats := rfl
@[simp] theorem State.withPlay_pins (x : Playback) : (s.withPlay x).pins = s.pins := rfl
@[simp] theorem State.withPlay_pending (x : Playback) : (s.withPlay x).pending = s.pending := rfl

/-! ### `withColour` -/

@[simp] theorem State.withColour_clock (x : Colour) : (s.withColour x).clock = s.clock := rfl
@[simp] theorem State.withColour_marks (x : Colour) : (s.withColour x).marks = s.marks := rfl
@[simp] theorem State.withColour_ports (x : Colour) : (s.withColour x).ports = s.ports := rfl
@[simp] theorem State.withColour_outbox (x : Colour) : (s.withColour x).outbox = s.outbox := rfl
@[simp] theorem State.withColour_longestWait (x : Colour) : (s.withColour x).longestWait = s.longestWait := rfl
@[simp] theorem State.withColour_peers (x : Colour) : (s.withColour x).peers = s.peers := rfl
@[simp] theorem State.withColour_cues (x : Colour) : (s.withColour x).cues = s.cues := rfl
@[simp] theorem State.withColour_play (x : Colour) : (s.withColour x).play = s.play := rfl
@[simp] theorem State.withColour_colour (x : Colour) : (s.withColour x).colour = x := rfl
@[simp] theorem State.withColour_axes (x : Colour) : (s.withColour x).axes = s.axes := rfl
@[simp] theorem State.withColour_bridgeNext (x : Colour) : (s.withColour x).bridgeNext = s.bridgeNext := rfl
@[simp] theorem State.withColour_sense (x : Colour) : (s.withColour x).sense = s.sense := rfl
@[simp] theorem State.withColour_feed (x : Colour) : (s.withColour x).feed = s.feed := rfl
@[simp] theorem State.withColour_store (x : Colour) : (s.withColour x).store = s.store := rfl
@[simp] theorem State.withColour_settings (x : Colour) : (s.withColour x).settings = s.settings := rfl
@[simp] theorem State.withColour_setup (x : Colour) : (s.withColour x).setup = s.setup := rfl
@[simp] theorem State.withColour_stats (x : Colour) : (s.withColour x).stats = s.stats := rfl
@[simp] theorem State.withColour_pins (x : Colour) : (s.withColour x).pins = s.pins := rfl
@[simp] theorem State.withColour_pending (x : Colour) : (s.withColour x).pending = s.pending := rfl

/-! ### `withAxes` -/

@[simp] theorem State.withAxes_clock (x : PerAxis AxisState) : (s.withAxes x).clock = s.clock := rfl
@[simp] theorem State.withAxes_marks (x : PerAxis AxisState) : (s.withAxes x).marks = s.marks := rfl
@[simp] theorem State.withAxes_ports (x : PerAxis AxisState) : (s.withAxes x).ports = s.ports := rfl
@[simp] theorem State.withAxes_outbox (x : PerAxis AxisState) : (s.withAxes x).outbox = s.outbox := rfl
@[simp] theorem State.withAxes_longestWait (x : PerAxis AxisState) : (s.withAxes x).longestWait = s.longestWait := rfl
@[simp] theorem State.withAxes_peers (x : PerAxis AxisState) : (s.withAxes x).peers = s.peers := rfl
@[simp] theorem State.withAxes_cues (x : PerAxis AxisState) : (s.withAxes x).cues = s.cues := rfl
@[simp] theorem State.withAxes_play (x : PerAxis AxisState) : (s.withAxes x).play = s.play := rfl
@[simp] theorem State.withAxes_colour (x : PerAxis AxisState) : (s.withAxes x).colour = s.colour := rfl
@[simp] theorem State.withAxes_axes (x : PerAxis AxisState) : (s.withAxes x).axes = x := rfl
@[simp] theorem State.withAxes_bridgeNext (x : PerAxis AxisState) : (s.withAxes x).bridgeNext = s.bridgeNext := rfl
@[simp] theorem State.withAxes_sense (x : PerAxis AxisState) : (s.withAxes x).sense = s.sense := rfl
@[simp] theorem State.withAxes_feed (x : PerAxis AxisState) : (s.withAxes x).feed = s.feed := rfl
@[simp] theorem State.withAxes_store (x : PerAxis AxisState) : (s.withAxes x).store = s.store := rfl
@[simp] theorem State.withAxes_settings (x : PerAxis AxisState) : (s.withAxes x).settings = s.settings := rfl
@[simp] theorem State.withAxes_setup (x : PerAxis AxisState) : (s.withAxes x).setup = s.setup := rfl
@[simp] theorem State.withAxes_stats (x : PerAxis AxisState) : (s.withAxes x).stats = s.stats := rfl
@[simp] theorem State.withAxes_pins (x : PerAxis AxisState) : (s.withAxes x).pins = s.pins := rfl
@[simp] theorem State.withAxes_pending (x : PerAxis AxisState) : (s.withAxes x).pending = s.pending := rfl

/-! ### `withBridgeNext` -/

@[simp] theorem State.withBridgeNext_clock (x : Nat) : (s.withBridgeNext x).clock = s.clock := rfl
@[simp] theorem State.withBridgeNext_marks (x : Nat) : (s.withBridgeNext x).marks = s.marks := rfl
@[simp] theorem State.withBridgeNext_ports (x : Nat) : (s.withBridgeNext x).ports = s.ports := rfl
@[simp] theorem State.withBridgeNext_outbox (x : Nat) : (s.withBridgeNext x).outbox = s.outbox := rfl
@[simp] theorem State.withBridgeNext_longestWait (x : Nat) : (s.withBridgeNext x).longestWait = s.longestWait := rfl
@[simp] theorem State.withBridgeNext_peers (x : Nat) : (s.withBridgeNext x).peers = s.peers := rfl
@[simp] theorem State.withBridgeNext_cues (x : Nat) : (s.withBridgeNext x).cues = s.cues := rfl
@[simp] theorem State.withBridgeNext_play (x : Nat) : (s.withBridgeNext x).play = s.play := rfl
@[simp] theorem State.withBridgeNext_colour (x : Nat) : (s.withBridgeNext x).colour = s.colour := rfl
@[simp] theorem State.withBridgeNext_axes (x : Nat) : (s.withBridgeNext x).axes = s.axes := rfl
@[simp] theorem State.withBridgeNext_bridgeNext (x : Nat) : (s.withBridgeNext x).bridgeNext = x := rfl
@[simp] theorem State.withBridgeNext_sense (x : Nat) : (s.withBridgeNext x).sense = s.sense := rfl
@[simp] theorem State.withBridgeNext_feed (x : Nat) : (s.withBridgeNext x).feed = s.feed := rfl
@[simp] theorem State.withBridgeNext_store (x : Nat) : (s.withBridgeNext x).store = s.store := rfl
@[simp] theorem State.withBridgeNext_settings (x : Nat) : (s.withBridgeNext x).settings = s.settings := rfl
@[simp] theorem State.withBridgeNext_setup (x : Nat) : (s.withBridgeNext x).setup = s.setup := rfl
@[simp] theorem State.withBridgeNext_stats (x : Nat) : (s.withBridgeNext x).stats = s.stats := rfl
@[simp] theorem State.withBridgeNext_pins (x : Nat) : (s.withBridgeNext x).pins = s.pins := rfl
@[simp] theorem State.withBridgeNext_pending (x : Nat) : (s.withBridgeNext x).pending = s.pending := rfl

/-! ### `withSense` -/

@[simp] theorem State.withSense_clock (x : Sense) : (s.withSense x).clock = s.clock := rfl
@[simp] theorem State.withSense_marks (x : Sense) : (s.withSense x).marks = s.marks := rfl
@[simp] theorem State.withSense_ports (x : Sense) : (s.withSense x).ports = s.ports := rfl
@[simp] theorem State.withSense_outbox (x : Sense) : (s.withSense x).outbox = s.outbox := rfl
@[simp] theorem State.withSense_longestWait (x : Sense) : (s.withSense x).longestWait = s.longestWait := rfl
@[simp] theorem State.withSense_peers (x : Sense) : (s.withSense x).peers = s.peers := rfl
@[simp] theorem State.withSense_cues (x : Sense) : (s.withSense x).cues = s.cues := rfl
@[simp] theorem State.withSense_play (x : Sense) : (s.withSense x).play = s.play := rfl
@[simp] theorem State.withSense_colour (x : Sense) : (s.withSense x).colour = s.colour := rfl
@[simp] theorem State.withSense_axes (x : Sense) : (s.withSense x).axes = s.axes := rfl
@[simp] theorem State.withSense_bridgeNext (x : Sense) : (s.withSense x).bridgeNext = s.bridgeNext := rfl
@[simp] theorem State.withSense_sense (x : Sense) : (s.withSense x).sense = x := rfl
@[simp] theorem State.withSense_feed (x : Sense) : (s.withSense x).feed = s.feed := rfl
@[simp] theorem State.withSense_store (x : Sense) : (s.withSense x).store = s.store := rfl
@[simp] theorem State.withSense_settings (x : Sense) : (s.withSense x).settings = s.settings := rfl
@[simp] theorem State.withSense_setup (x : Sense) : (s.withSense x).setup = s.setup := rfl
@[simp] theorem State.withSense_stats (x : Sense) : (s.withSense x).stats = s.stats := rfl
@[simp] theorem State.withSense_pins (x : Sense) : (s.withSense x).pins = s.pins := rfl
@[simp] theorem State.withSense_pending (x : Sense) : (s.withSense x).pending = s.pending := rfl

/-! ### `withFeed` -/

@[simp] theorem State.withFeed_clock (x : Feed) : (s.withFeed x).clock = s.clock := rfl
@[simp] theorem State.withFeed_marks (x : Feed) : (s.withFeed x).marks = s.marks := rfl
@[simp] theorem State.withFeed_ports (x : Feed) : (s.withFeed x).ports = s.ports := rfl
@[simp] theorem State.withFeed_outbox (x : Feed) : (s.withFeed x).outbox = s.outbox := rfl
@[simp] theorem State.withFeed_longestWait (x : Feed) : (s.withFeed x).longestWait = s.longestWait := rfl
@[simp] theorem State.withFeed_peers (x : Feed) : (s.withFeed x).peers = s.peers := rfl
@[simp] theorem State.withFeed_cues (x : Feed) : (s.withFeed x).cues = s.cues := rfl
@[simp] theorem State.withFeed_play (x : Feed) : (s.withFeed x).play = s.play := rfl
@[simp] theorem State.withFeed_colour (x : Feed) : (s.withFeed x).colour = s.colour := rfl
@[simp] theorem State.withFeed_axes (x : Feed) : (s.withFeed x).axes = s.axes := rfl
@[simp] theorem State.withFeed_bridgeNext (x : Feed) : (s.withFeed x).bridgeNext = s.bridgeNext := rfl
@[simp] theorem State.withFeed_sense (x : Feed) : (s.withFeed x).sense = s.sense := rfl
@[simp] theorem State.withFeed_feed (x : Feed) : (s.withFeed x).feed = x := rfl
@[simp] theorem State.withFeed_store (x : Feed) : (s.withFeed x).store = s.store := rfl
@[simp] theorem State.withFeed_settings (x : Feed) : (s.withFeed x).settings = s.settings := rfl
@[simp] theorem State.withFeed_setup (x : Feed) : (s.withFeed x).setup = s.setup := rfl
@[simp] theorem State.withFeed_stats (x : Feed) : (s.withFeed x).stats = s.stats := rfl
@[simp] theorem State.withFeed_pins (x : Feed) : (s.withFeed x).pins = s.pins := rfl
@[simp] theorem State.withFeed_pending (x : Feed) : (s.withFeed x).pending = s.pending := rfl

/-! ### `withStore` -/

@[simp] theorem State.withStore_clock (x : List Host.Cell) : (s.withStore x).clock = s.clock := rfl
@[simp] theorem State.withStore_marks (x : List Host.Cell) : (s.withStore x).marks = s.marks := rfl
@[simp] theorem State.withStore_ports (x : List Host.Cell) : (s.withStore x).ports = s.ports := rfl
@[simp] theorem State.withStore_outbox (x : List Host.Cell) : (s.withStore x).outbox = s.outbox := rfl
@[simp] theorem State.withStore_longestWait (x : List Host.Cell) : (s.withStore x).longestWait = s.longestWait := rfl
@[simp] theorem State.withStore_peers (x : List Host.Cell) : (s.withStore x).peers = s.peers := rfl
@[simp] theorem State.withStore_cues (x : List Host.Cell) : (s.withStore x).cues = s.cues := rfl
@[simp] theorem State.withStore_play (x : List Host.Cell) : (s.withStore x).play = s.play := rfl
@[simp] theorem State.withStore_colour (x : List Host.Cell) : (s.withStore x).colour = s.colour := rfl
@[simp] theorem State.withStore_axes (x : List Host.Cell) : (s.withStore x).axes = s.axes := rfl
@[simp] theorem State.withStore_bridgeNext (x : List Host.Cell) : (s.withStore x).bridgeNext = s.bridgeNext := rfl
@[simp] theorem State.withStore_sense (x : List Host.Cell) : (s.withStore x).sense = s.sense := rfl
@[simp] theorem State.withStore_feed (x : List Host.Cell) : (s.withStore x).feed = s.feed := rfl
@[simp] theorem State.withStore_store (x : List Host.Cell) : (s.withStore x).store = x := rfl
@[simp] theorem State.withStore_settings (x : List Host.Cell) : (s.withStore x).settings = s.settings := rfl
@[simp] theorem State.withStore_setup (x : List Host.Cell) : (s.withStore x).setup = s.setup := rfl
@[simp] theorem State.withStore_stats (x : List Host.Cell) : (s.withStore x).stats = s.stats := rfl
@[simp] theorem State.withStore_pins (x : List Host.Cell) : (s.withStore x).pins = s.pins := rfl
@[simp] theorem State.withStore_pending (x : List Host.Cell) : (s.withStore x).pending = s.pending := rfl

/-! ### `withSettings` -/

@[simp] theorem State.withSettings_clock (x : Settings) : (s.withSettings x).clock = s.clock := rfl
@[simp] theorem State.withSettings_marks (x : Settings) : (s.withSettings x).marks = s.marks := rfl
@[simp] theorem State.withSettings_ports (x : Settings) : (s.withSettings x).ports = s.ports := rfl
@[simp] theorem State.withSettings_outbox (x : Settings) : (s.withSettings x).outbox = s.outbox := rfl
@[simp] theorem State.withSettings_longestWait (x : Settings) : (s.withSettings x).longestWait = s.longestWait := rfl
@[simp] theorem State.withSettings_peers (x : Settings) : (s.withSettings x).peers = s.peers := rfl
@[simp] theorem State.withSettings_cues (x : Settings) : (s.withSettings x).cues = s.cues := rfl
@[simp] theorem State.withSettings_play (x : Settings) : (s.withSettings x).play = s.play := rfl
@[simp] theorem State.withSettings_colour (x : Settings) : (s.withSettings x).colour = s.colour := rfl
@[simp] theorem State.withSettings_axes (x : Settings) : (s.withSettings x).axes = s.axes := rfl
@[simp] theorem State.withSettings_bridgeNext (x : Settings) : (s.withSettings x).bridgeNext = s.bridgeNext := rfl
@[simp] theorem State.withSettings_sense (x : Settings) : (s.withSettings x).sense = s.sense := rfl
@[simp] theorem State.withSettings_feed (x : Settings) : (s.withSettings x).feed = s.feed := rfl
@[simp] theorem State.withSettings_store (x : Settings) : (s.withSettings x).store = s.store := rfl
@[simp] theorem State.withSettings_settings (x : Settings) : (s.withSettings x).settings = x := rfl
@[simp] theorem State.withSettings_setup (x : Settings) : (s.withSettings x).setup = s.setup := rfl
@[simp] theorem State.withSettings_stats (x : Settings) : (s.withSettings x).stats = s.stats := rfl
@[simp] theorem State.withSettings_pins (x : Settings) : (s.withSettings x).pins = s.pins := rfl
@[simp] theorem State.withSettings_pending (x : Settings) : (s.withSettings x).pending = s.pending := rfl

/-! ### `withSetup` -/

@[simp] theorem State.withSetup_clock (x : Setup) : (s.withSetup x).clock = s.clock := rfl
@[simp] theorem State.withSetup_marks (x : Setup) : (s.withSetup x).marks = s.marks := rfl
@[simp] theorem State.withSetup_ports (x : Setup) : (s.withSetup x).ports = s.ports := rfl
@[simp] theorem State.withSetup_outbox (x : Setup) : (s.withSetup x).outbox = s.outbox := rfl
@[simp] theorem State.withSetup_longestWait (x : Setup) : (s.withSetup x).longestWait = s.longestWait := rfl
@[simp] theorem State.withSetup_peers (x : Setup) : (s.withSetup x).peers = s.peers := rfl
@[simp] theorem State.withSetup_cues (x : Setup) : (s.withSetup x).cues = s.cues := rfl
@[simp] theorem State.withSetup_play (x : Setup) : (s.withSetup x).play = s.play := rfl
@[simp] theorem State.withSetup_colour (x : Setup) : (s.withSetup x).colour = s.colour := rfl
@[simp] theorem State.withSetup_axes (x : Setup) : (s.withSetup x).axes = s.axes := rfl
@[simp] theorem State.withSetup_bridgeNext (x : Setup) : (s.withSetup x).bridgeNext = s.bridgeNext := rfl
@[simp] theorem State.withSetup_sense (x : Setup) : (s.withSetup x).sense = s.sense := rfl
@[simp] theorem State.withSetup_feed (x : Setup) : (s.withSetup x).feed = s.feed := rfl
@[simp] theorem State.withSetup_store (x : Setup) : (s.withSetup x).store = s.store := rfl
@[simp] theorem State.withSetup_settings (x : Setup) : (s.withSetup x).settings = s.settings := rfl
@[simp] theorem State.withSetup_setup (x : Setup) : (s.withSetup x).setup = x := rfl
@[simp] theorem State.withSetup_stats (x : Setup) : (s.withSetup x).stats = s.stats := rfl
@[simp] theorem State.withSetup_pins (x : Setup) : (s.withSetup x).pins = s.pins := rfl
@[simp] theorem State.withSetup_pending (x : Setup) : (s.withSetup x).pending = s.pending := rfl

/-! ### `withStats` -/

@[simp] theorem State.withStats_clock (x : Stats) : (s.withStats x).clock = s.clock := rfl
@[simp] theorem State.withStats_marks (x : Stats) : (s.withStats x).marks = s.marks := rfl
@[simp] theorem State.withStats_ports (x : Stats) : (s.withStats x).ports = s.ports := rfl
@[simp] theorem State.withStats_outbox (x : Stats) : (s.withStats x).outbox = s.outbox := rfl
@[simp] theorem State.withStats_longestWait (x : Stats) : (s.withStats x).longestWait = s.longestWait := rfl
@[simp] theorem State.withStats_peers (x : Stats) : (s.withStats x).peers = s.peers := rfl
@[simp] theorem State.withStats_cues (x : Stats) : (s.withStats x).cues = s.cues := rfl
@[simp] theorem State.withStats_play (x : Stats) : (s.withStats x).play = s.play := rfl
@[simp] theorem State.withStats_colour (x : Stats) : (s.withStats x).colour = s.colour := rfl
@[simp] theorem State.withStats_axes (x : Stats) : (s.withStats x).axes = s.axes := rfl
@[simp] theorem State.withStats_bridgeNext (x : Stats) : (s.withStats x).bridgeNext = s.bridgeNext := rfl
@[simp] theorem State.withStats_sense (x : Stats) : (s.withStats x).sense = s.sense := rfl
@[simp] theorem State.withStats_feed (x : Stats) : (s.withStats x).feed = s.feed := rfl
@[simp] theorem State.withStats_store (x : Stats) : (s.withStats x).store = s.store := rfl
@[simp] theorem State.withStats_settings (x : Stats) : (s.withStats x).settings = s.settings := rfl
@[simp] theorem State.withStats_setup (x : Stats) : (s.withStats x).setup = s.setup := rfl
@[simp] theorem State.withStats_stats (x : Stats) : (s.withStats x).stats = x := rfl
@[simp] theorem State.withStats_pins (x : Stats) : (s.withStats x).pins = s.pins := rfl
@[simp] theorem State.withStats_pending (x : Stats) : (s.withStats x).pending = s.pending := rfl

/-! ### `withPins` -/

@[simp] theorem State.withPins_clock (x : Pins) : (s.withPins x).clock = s.clock := rfl
@[simp] theorem State.withPins_marks (x : Pins) : (s.withPins x).marks = s.marks := rfl
@[simp] theorem State.withPins_ports (x : Pins) : (s.withPins x).ports = s.ports := rfl
@[simp] theorem State.withPins_outbox (x : Pins) : (s.withPins x).outbox = s.outbox := rfl
@[simp] theorem State.withPins_longestWait (x : Pins) : (s.withPins x).longestWait = s.longestWait := rfl
@[simp] theorem State.withPins_peers (x : Pins) : (s.withPins x).peers = s.peers := rfl
@[simp] theorem State.withPins_cues (x : Pins) : (s.withPins x).cues = s.cues := rfl
@[simp] theorem State.withPins_play (x : Pins) : (s.withPins x).play = s.play := rfl
@[simp] theorem State.withPins_colour (x : Pins) : (s.withPins x).colour = s.colour := rfl
@[simp] theorem State.withPins_axes (x : Pins) : (s.withPins x).axes = s.axes := rfl
@[simp] theorem State.withPins_bridgeNext (x : Pins) : (s.withPins x).bridgeNext = s.bridgeNext := rfl
@[simp] theorem State.withPins_sense (x : Pins) : (s.withPins x).sense = s.sense := rfl
@[simp] theorem State.withPins_feed (x : Pins) : (s.withPins x).feed = s.feed := rfl
@[simp] theorem State.withPins_store (x : Pins) : (s.withPins x).store = s.store := rfl
@[simp] theorem State.withPins_settings (x : Pins) : (s.withPins x).settings = s.settings := rfl
@[simp] theorem State.withPins_setup (x : Pins) : (s.withPins x).setup = s.setup := rfl
@[simp] theorem State.withPins_stats (x : Pins) : (s.withPins x).stats = s.stats := rfl
@[simp] theorem State.withPins_pins (x : Pins) : (s.withPins x).pins = x := rfl
@[simp] theorem State.withPins_pending (x : Pins) : (s.withPins x).pending = s.pending := rfl

/-! ### `withPort` -/

@[simp] theorem State.withPort_clock (p : Port) (x : PortState) : (s.withPort p x).clock = s.clock := rfl
@[simp] theorem State.withPort_marks (p : Port) (x : PortState) : (s.withPort p x).marks = s.marks := rfl
@[simp] theorem State.withPort_ports (p : Port) (x : PortState) : (s.withPort p x).ports = s.ports.set p x := rfl
@[simp] theorem State.withPort_outbox (p : Port) (x : PortState) : (s.withPort p x).outbox = s.outbox := rfl
@[simp] theorem State.withPort_longestWait (p : Port) (x : PortState) : (s.withPort p x).longestWait = s.longestWait := rfl
@[simp] theorem State.withPort_peers (p : Port) (x : PortState) : (s.withPort p x).peers = s.peers := rfl
@[simp] theorem State.withPort_cues (p : Port) (x : PortState) : (s.withPort p x).cues = s.cues := rfl
@[simp] theorem State.withPort_play (p : Port) (x : PortState) : (s.withPort p x).play = s.play := rfl
@[simp] theorem State.withPort_colour (p : Port) (x : PortState) : (s.withPort p x).colour = s.colour := rfl
@[simp] theorem State.withPort_axes (p : Port) (x : PortState) : (s.withPort p x).axes = s.axes := rfl
@[simp] theorem State.withPort_bridgeNext (p : Port) (x : PortState) : (s.withPort p x).bridgeNext = s.bridgeNext := rfl
@[simp] theorem State.withPort_sense (p : Port) (x : PortState) : (s.withPort p x).sense = s.sense := rfl
@[simp] theorem State.withPort_feed (p : Port) (x : PortState) : (s.withPort p x).feed = s.feed := rfl
@[simp] theorem State.withPort_store (p : Port) (x : PortState) : (s.withPort p x).store = s.store := rfl
@[simp] theorem State.withPort_settings (p : Port) (x : PortState) : (s.withPort p x).settings = s.settings := rfl
@[simp] theorem State.withPort_setup (p : Port) (x : PortState) : (s.withPort p x).setup = s.setup := rfl
@[simp] theorem State.withPort_stats (p : Port) (x : PortState) : (s.withPort p x).stats = s.stats := rfl
@[simp] theorem State.withPort_pins (p : Port) (x : PortState) : (s.withPort p x).pins = s.pins := rfl
@[simp] theorem State.withPort_pending (p : Port) (x : PortState) : (s.withPort p x).pending = s.pending := rfl

/-! ### `withAxis` -/

@[simp] theorem State.withAxis_clock (x : Axis) (a : AxisState) : (s.withAxis x a).clock = s.clock := rfl
@[simp] theorem State.withAxis_marks (x : Axis) (a : AxisState) : (s.withAxis x a).marks = s.marks := rfl
@[simp] theorem State.withAxis_ports (x : Axis) (a : AxisState) : (s.withAxis x a).ports = s.ports := rfl
@[simp] theorem State.withAxis_outbox (x : Axis) (a : AxisState) : (s.withAxis x a).outbox = s.outbox := rfl
@[simp] theorem State.withAxis_longestWait (x : Axis) (a : AxisState) : (s.withAxis x a).longestWait = s.longestWait := rfl
@[simp] theorem State.withAxis_peers (x : Axis) (a : AxisState) : (s.withAxis x a).peers = s.peers := rfl
@[simp] theorem State.withAxis_cues (x : Axis) (a : AxisState) : (s.withAxis x a).cues = s.cues := rfl
@[simp] theorem State.withAxis_play (x : Axis) (a : AxisState) : (s.withAxis x a).play = s.play := rfl
@[simp] theorem State.withAxis_colour (x : Axis) (a : AxisState) : (s.withAxis x a).colour = s.colour := rfl
@[simp] theorem State.withAxis_axes (x : Axis) (a : AxisState) : (s.withAxis x a).axes = s.axes.set x a := rfl
@[simp] theorem State.withAxis_bridgeNext (x : Axis) (a : AxisState) : (s.withAxis x a).bridgeNext = s.bridgeNext := rfl
@[simp] theorem State.withAxis_sense (x : Axis) (a : AxisState) : (s.withAxis x a).sense = s.sense := rfl
@[simp] theorem State.withAxis_feed (x : Axis) (a : AxisState) : (s.withAxis x a).feed = s.feed := rfl
@[simp] theorem State.withAxis_store (x : Axis) (a : AxisState) : (s.withAxis x a).store = s.store := rfl
@[simp] theorem State.withAxis_settings (x : Axis) (a : AxisState) : (s.withAxis x a).settings = s.settings := rfl
@[simp] theorem State.withAxis_setup (x : Axis) (a : AxisState) : (s.withAxis x a).setup = s.setup := rfl
@[simp] theorem State.withAxis_stats (x : Axis) (a : AxisState) : (s.withAxis x a).stats = s.stats := rfl
@[simp] theorem State.withAxis_pins (x : Axis) (a : AxisState) : (s.withAxis x a).pins = s.pins := rfl
@[simp] theorem State.withAxis_pending (x : Axis) (a : AxisState) : (s.withAxis x a).pending = s.pending := rfl

/-! ### `withPos` -/

@[simp] theorem State.withPos_clock (l : PosLanes) : (s.withPos l).clock = s.clock := rfl
@[simp] theorem State.withPos_marks (l : PosLanes) : (s.withPos l).marks = s.marks := rfl
@[simp] theorem State.withPos_ports (l : PosLanes) : (s.withPos l).ports = s.ports := rfl
@[simp] theorem State.withPos_outbox (l : PosLanes) : (s.withPos l).outbox = s.outbox := rfl
@[simp] theorem State.withPos_longestWait (l : PosLanes) : (s.withPos l).longestWait = s.longestWait := rfl
@[simp] theorem State.withPos_peers (l : PosLanes) : (s.withPos l).peers = s.peers := rfl
@[simp] theorem State.withPos_cues (l : PosLanes) : (s.withPos l).cues = s.cues := rfl
@[simp] theorem State.withPos_play (l : PosLanes) : (s.withPos l).play = { s.play with pos := l } := rfl
@[simp] theorem State.withPos_colour (l : PosLanes) : (s.withPos l).colour = s.colour := rfl
@[simp] theorem State.withPos_axes (l : PosLanes) : (s.withPos l).axes = s.axes := rfl
@[simp] theorem State.withPos_bridgeNext (l : PosLanes) : (s.withPos l).bridgeNext = s.bridgeNext := rfl
@[simp] theorem State.withPos_sense (l : PosLanes) : (s.withPos l).sense = s.sense := rfl
@[simp] theorem State.withPos_feed (l : PosLanes) : (s.withPos l).feed = s.feed := rfl
@[simp] theorem State.withPos_store (l : PosLanes) : (s.withPos l).store = s.store := rfl
@[simp] theorem State.withPos_settings (l : PosLanes) : (s.withPos l).settings = s.settings := rfl
@[simp] theorem State.withPos_setup (l : PosLanes) : (s.withPos l).setup = s.setup := rfl
@[simp] theorem State.withPos_stats (l : PosLanes) : (s.withPos l).stats = s.stats := rfl
@[simp] theorem State.withPos_pins (l : PosLanes) : (s.withPos l).pins = s.pins := rfl
@[simp] theorem State.withPos_pending (l : PosLanes) : (s.withPos l).pending = s.pending := rfl

/-! ### `mapClock` -/

@[simp] theorem State.mapClock_clock (f : Clock → Clock) : (s.mapClock f).clock = f s.clock := rfl
@[simp] theorem State.mapClock_marks (f : Clock → Clock) : (s.mapClock f).marks = s.marks := rfl
@[simp] theorem State.mapClock_ports (f : Clock → Clock) : (s.mapClock f).ports = s.ports := rfl
@[simp] theorem State.mapClock_outbox (f : Clock → Clock) : (s.mapClock f).outbox = s.outbox := rfl
@[simp] theorem State.mapClock_longestWait (f : Clock → Clock) : (s.mapClock f).longestWait = s.longestWait := rfl
@[simp] theorem State.mapClock_peers (f : Clock → Clock) : (s.mapClock f).peers = s.peers := rfl
@[simp] theorem State.mapClock_cues (f : Clock → Clock) : (s.mapClock f).cues = s.cues := rfl
@[simp] theorem State.mapClock_play (f : Clock → Clock) : (s.mapClock f).play = s.play := rfl
@[simp] theorem State.mapClock_colour (f : Clock → Clock) : (s.mapClock f).colour = s.colour := rfl
@[simp] theorem State.mapClock_axes (f : Clock → Clock) : (s.mapClock f).axes = s.axes := rfl
@[simp] theorem State.mapClock_bridgeNext (f : Clock → Clock) : (s.mapClock f).bridgeNext = s.bridgeNext := rfl
@[simp] theorem State.mapClock_sense (f : Clock → Clock) : (s.mapClock f).sense = s.sense := rfl
@[simp] theorem State.mapClock_feed (f : Clock → Clock) : (s.mapClock f).feed = s.feed := rfl
@[simp] theorem State.mapClock_store (f : Clock → Clock) : (s.mapClock f).store = s.store := rfl
@[simp] theorem State.mapClock_settings (f : Clock → Clock) : (s.mapClock f).settings = s.settings := rfl
@[simp] theorem State.mapClock_setup (f : Clock → Clock) : (s.mapClock f).setup = s.setup := rfl
@[simp] theorem State.mapClock_stats (f : Clock → Clock) : (s.mapClock f).stats = s.stats := rfl
@[simp] theorem State.mapClock_pins (f : Clock → Clock) : (s.mapClock f).pins = s.pins := rfl
@[simp] theorem State.mapClock_pending (f : Clock → Clock) : (s.mapClock f).pending = s.pending := rfl

/-! ### `mapSetup` -/

@[simp] theorem State.mapSetup_clock (f : Setup → Setup) : (s.mapSetup f).clock = s.clock := rfl
@[simp] theorem State.mapSetup_marks (f : Setup → Setup) : (s.mapSetup f).marks = s.marks := rfl
@[simp] theorem State.mapSetup_ports (f : Setup → Setup) : (s.mapSetup f).ports = s.ports := rfl
@[simp] theorem State.mapSetup_outbox (f : Setup → Setup) : (s.mapSetup f).outbox = s.outbox := rfl
@[simp] theorem State.mapSetup_longestWait (f : Setup → Setup) : (s.mapSetup f).longestWait = s.longestWait := rfl
@[simp] theorem State.mapSetup_peers (f : Setup → Setup) : (s.mapSetup f).peers = s.peers := rfl
@[simp] theorem State.mapSetup_cues (f : Setup → Setup) : (s.mapSetup f).cues = s.cues := rfl
@[simp] theorem State.mapSetup_play (f : Setup → Setup) : (s.mapSetup f).play = s.play := rfl
@[simp] theorem State.mapSetup_colour (f : Setup → Setup) : (s.mapSetup f).colour = s.colour := rfl
@[simp] theorem State.mapSetup_axes (f : Setup → Setup) : (s.mapSetup f).axes = s.axes := rfl
@[simp] theorem State.mapSetup_bridgeNext (f : Setup → Setup) : (s.mapSetup f).bridgeNext = s.bridgeNext := rfl
@[simp] theorem State.mapSetup_sense (f : Setup → Setup) : (s.mapSetup f).sense = s.sense := rfl
@[simp] theorem State.mapSetup_feed (f : Setup → Setup) : (s.mapSetup f).feed = s.feed := rfl
@[simp] theorem State.mapSetup_store (f : Setup → Setup) : (s.mapSetup f).store = s.store := rfl
@[simp] theorem State.mapSetup_settings (f : Setup → Setup) : (s.mapSetup f).settings = s.settings := rfl
@[simp] theorem State.mapSetup_setup (f : Setup → Setup) : (s.mapSetup f).setup = f s.setup := rfl
@[simp] theorem State.mapSetup_stats (f : Setup → Setup) : (s.mapSetup f).stats = s.stats := rfl
@[simp] theorem State.mapSetup_pins (f : Setup → Setup) : (s.mapSetup f).pins = s.pins := rfl
@[simp] theorem State.mapSetup_pending (f : Setup → Setup) : (s.mapSetup f).pending = s.pending := rfl

/-! ### `mapPort` -/

@[simp] theorem State.mapPort_clock (p : Port) (f : PortState → PortState) : (s.mapPort p f).clock = s.clock := rfl
@[simp] theorem State.mapPort_marks (p : Port) (f : PortState → PortState) : (s.mapPort p f).marks = s.marks := rfl
@[simp] theorem State.mapPort_ports (p : Port) (f : PortState → PortState) : (s.mapPort p f).ports = s.ports.set p (f (s.ports.get p)) := rfl
@[simp] theorem State.mapPort_outbox (p : Port) (f : PortState → PortState) : (s.mapPort p f).outbox = s.outbox := rfl
@[simp] theorem State.mapPort_longestWait (p : Port) (f : PortState → PortState) : (s.mapPort p f).longestWait = s.longestWait := rfl
@[simp] theorem State.mapPort_peers (p : Port) (f : PortState → PortState) : (s.mapPort p f).peers = s.peers := rfl
@[simp] theorem State.mapPort_cues (p : Port) (f : PortState → PortState) : (s.mapPort p f).cues = s.cues := rfl
@[simp] theorem State.mapPort_play (p : Port) (f : PortState → PortState) : (s.mapPort p f).play = s.play := rfl
@[simp] theorem State.mapPort_colour (p : Port) (f : PortState → PortState) : (s.mapPort p f).colour = s.colour := rfl
@[simp] theorem State.mapPort_axes (p : Port) (f : PortState → PortState) : (s.mapPort p f).axes = s.axes := rfl
@[simp] theorem State.mapPort_bridgeNext (p : Port) (f : PortState → PortState) : (s.mapPort p f).bridgeNext = s.bridgeNext := rfl
@[simp] theorem State.mapPort_sense (p : Port) (f : PortState → PortState) : (s.mapPort p f).sense = s.sense := rfl
@[simp] theorem State.mapPort_feed (p : Port) (f : PortState → PortState) : (s.mapPort p f).feed = s.feed := rfl
@[simp] theorem State.mapPort_store (p : Port) (f : PortState → PortState) : (s.mapPort p f).store = s.store := rfl
@[simp] theorem State.mapPort_settings (p : Port) (f : PortState → PortState) : (s.mapPort p f).settings = s.settings := rfl
@[simp] theorem State.mapPort_setup (p : Port) (f : PortState → PortState) : (s.mapPort p f).setup = s.setup := rfl
@[simp] theorem State.mapPort_stats (p : Port) (f : PortState → PortState) : (s.mapPort p f).stats = s.stats := rfl
@[simp] theorem State.mapPort_pins (p : Port) (f : PortState → PortState) : (s.mapPort p f).pins = s.pins := rfl
@[simp] theorem State.mapPort_pending (p : Port) (f : PortState → PortState) : (s.mapPort p f).pending = s.pending := rfl

/-! ### `mapFifo` -/

@[simp] theorem State.mapFifo_clock (p : Port) (f : RelayFifo → RelayFifo) : (s.mapFifo p f).clock = s.clock := rfl
@[simp] theorem State.mapFifo_marks (p : Port) (f : RelayFifo → RelayFifo) : (s.mapFifo p f).marks = s.marks := rfl
@[simp] theorem State.mapFifo_outbox (p : Port) (f : RelayFifo → RelayFifo) : (s.mapFifo p f).outbox = s.outbox := rfl
@[simp] theorem State.mapFifo_longestWait (p : Port) (f : RelayFifo → RelayFifo) : (s.mapFifo p f).longestWait = s.longestWait := rfl
@[simp] theorem State.mapFifo_peers (p : Port) (f : RelayFifo → RelayFifo) : (s.mapFifo p f).peers = s.peers := rfl
@[simp] theorem State.mapFifo_cues (p : Port) (f : RelayFifo → RelayFifo) : (s.mapFifo p f).cues = s.cues := rfl
@[simp] theorem State.mapFifo_play (p : Port) (f : RelayFifo → RelayFifo) : (s.mapFifo p f).play = s.play := rfl
@[simp] theorem State.mapFifo_colour (p : Port) (f : RelayFifo → RelayFifo) : (s.mapFifo p f).colour = s.colour := rfl
@[simp] theorem State.mapFifo_axes (p : Port) (f : RelayFifo → RelayFifo) : (s.mapFifo p f).axes = s.axes := rfl
@[simp] theorem State.mapFifo_bridgeNext (p : Port) (f : RelayFifo → RelayFifo) : (s.mapFifo p f).bridgeNext = s.bridgeNext := rfl
@[simp] theorem State.mapFifo_sense (p : Port) (f : RelayFifo → RelayFifo) : (s.mapFifo p f).sense = s.sense := rfl
@[simp] theorem State.mapFifo_feed (p : Port) (f : RelayFifo → RelayFifo) : (s.mapFifo p f).feed = s.feed := rfl
@[simp] theorem State.mapFifo_store (p : Port) (f : RelayFifo → RelayFifo) : (s.mapFifo p f).store = s.store := rfl
@[simp] theorem State.mapFifo_settings (p : Port) (f : RelayFifo → RelayFifo) : (s.mapFifo p f).settings = s.settings := rfl
@[simp] theorem State.mapFifo_setup (p : Port) (f : RelayFifo → RelayFifo) : (s.mapFifo p f).setup = s.setup := rfl
@[simp] theorem State.mapFifo_stats (p : Port) (f : RelayFifo → RelayFifo) : (s.mapFifo p f).stats = s.stats := rfl
@[simp] theorem State.mapFifo_pins (p : Port) (f : RelayFifo → RelayFifo) : (s.mapFifo p f).pins = s.pins := rfl
@[simp] theorem State.mapFifo_pending (p : Port) (f : RelayFifo → RelayFifo) : (s.mapFifo p f).pending = s.pending := rfl

/-! ### `mapAsm` -/

@[simp] theorem State.mapAsm_clock (p : Port) (f : Assembler → Assembler) : (s.mapAsm p f).clock = s.clock := rfl
@[simp] theorem State.mapAsm_marks (p : Port) (f : Assembler → Assembler) : (s.mapAsm p f).marks = s.marks := rfl
@[simp] theorem State.mapAsm_outbox (p : Port) (f : Assembler → Assembler) : (s.mapAsm p f).outbox = s.outbox := rfl
@[simp] theorem State.mapAsm_longestWait (p : Port) (f : Assembler → Assembler) : (s.mapAsm p f).longestWait = s.longestWait := rfl
@[simp] theorem State.mapAsm_peers (p : Port) (f : Assembler → Assembler) : (s.mapAsm p f).peers = s.peers := rfl
@[simp] theorem State.mapAsm_cues (p : Port) (f : Assembler → Assembler) : (s.mapAsm p f).cues = s.cues := rfl
@[simp] theorem State.mapAsm_play (p : Port) (f : Assembler → Assembler) : (s.mapAsm p f).play = s.play := rfl
@[simp] theorem State.mapAsm_colour (p : Port) (f : Assembler → Assembler) : (s.mapAsm p f).colour = s.colour := rfl
@[simp] theorem State.mapAsm_axes (p : Port) (f : Assembler → Assembler) : (s.mapAsm p f).axes = s.axes := rfl
@[simp] theorem State.mapAsm_bridgeNext (p : Port) (f : Assembler → Assembler) : (s.mapAsm p f).bridgeNext = s.bridgeNext := rfl
@[simp] theorem State.mapAsm_sense (p : Port) (f : Assembler → Assembler) : (s.mapAsm p f).sense = s.sense := rfl
@[simp] theorem State.mapAsm_feed (p : Port) (f : Assembler → Assembler) : (s.mapAsm p f).feed = s.feed := rfl
@[simp] theorem State.mapAsm_store (p : Port) (f : Assembler → Assembler) : (s.mapAsm p f).store = s.store := rfl
@[simp] theorem State.mapAsm_settings (p : Port) (f : Assembler → Assembler) : (s.mapAsm p f).settings = s.settings := rfl
@[simp] theorem State.mapAsm_setup (p : Port) (f : Assembler → Assembler) : (s.mapAsm p f).setup = s.setup := rfl
@[simp] theorem State.mapAsm_stats (p : Port) (f : Assembler → Assembler) : (s.mapAsm p f).stats = s.stats := rfl
@[simp] theorem State.mapAsm_pins (p : Port) (f : Assembler → Assembler) : (s.mapAsm p f).pins = s.pins := rfl
@[simp] theorem State.mapAsm_pending (p : Port) (f : Assembler → Assembler) : (s.mapAsm p f).pending = s.pending := rfl

/-! ### `mapTx` -/

@[simp] theorem State.mapTx_clock (p : Port) (f : Transmitter → Transmitter) : (s.mapTx p f).clock = s.clock := rfl
@[simp] theorem State.mapTx_marks (p : Port) (f : Transmitter → Transmitter) : (s.mapTx p f).marks = s.marks := rfl
@[simp] theorem State.mapTx_outbox (p : Port) (f : Transmitter → Transmitter) : (s.mapTx p f).outbox = s.outbox := rfl
@[simp] theorem State.mapTx_longestWait (p : Port) (f : Transmitter → Transmitter) : (s.mapTx p f).longestWait = s.longestWait := rfl
@[simp] theorem State.mapTx_peers (p : Port) (f : Transmitter → Transmitter) : (s.mapTx p f).peers = s.peers := rfl
@[simp] theorem State.mapTx_cues (p : Port) (f : Transmitter → Transmitter) : (s.mapTx p f).cues = s.cues := rfl
@[simp] theorem State.mapTx_play (p : Port) (f : Transmitter → Transmitter) : (s.mapTx p f).play = s.play := rfl
@[simp] theorem State.mapTx_colour (p : Port) (f : Transmitter → Transmitter) : (s.mapTx p f).colour = s.colour := rfl
@[simp] theorem State.mapTx_axes (p : Port) (f : Transmitter → Transmitter) : (s.mapTx p f).axes = s.axes := rfl
@[simp] theorem State.mapTx_bridgeNext (p : Port) (f : Transmitter → Transmitter) : (s.mapTx p f).bridgeNext = s.bridgeNext := rfl
@[simp] theorem State.mapTx_sense (p : Port) (f : Transmitter → Transmitter) : (s.mapTx p f).sense = s.sense := rfl
@[simp] theorem State.mapTx_feed (p : Port) (f : Transmitter → Transmitter) : (s.mapTx p f).feed = s.feed := rfl
@[simp] theorem State.mapTx_store (p : Port) (f : Transmitter → Transmitter) : (s.mapTx p f).store = s.store := rfl
@[simp] theorem State.mapTx_settings (p : Port) (f : Transmitter → Transmitter) : (s.mapTx p f).settings = s.settings := rfl
@[simp] theorem State.mapTx_setup (p : Port) (f : Transmitter → Transmitter) : (s.mapTx p f).setup = s.setup := rfl
@[simp] theorem State.mapTx_stats (p : Port) (f : Transmitter → Transmitter) : (s.mapTx p f).stats = s.stats := rfl
@[simp] theorem State.mapTx_pins (p : Port) (f : Transmitter → Transmitter) : (s.mapTx p f).pins = s.pins := rfl
@[simp] theorem State.mapTx_pending (p : Port) (f : Transmitter → Transmitter) : (s.mapTx p f).pending = s.pending := rfl

/-! ### `withFront` -/

@[simp] theorem State.withFront_clock (c : Instr) : (s.withFront c).clock = s.clock := rfl
@[simp] theorem State.withFront_marks (c : Instr) : (s.withFront c).marks = s.marks := rfl
@[simp] theorem State.withFront_ports (c : Instr) : (s.withFront c).ports = s.ports := rfl
@[simp] theorem State.withFront_outbox (c : Instr) : (s.withFront c).outbox = s.outbox := rfl
@[simp] theorem State.withFront_longestWait (c : Instr) : (s.withFront c).longestWait = s.longestWait := rfl
@[simp] theorem State.withFront_peers (c : Instr) : (s.withFront c).peers = s.peers := rfl
@[simp] theorem State.withFront_cues (c : Instr) : (s.withFront c).cues = s.cues := rfl
@[simp] theorem State.withFront_play (c : Instr) : (s.withFront c).play = s.play := rfl
@[simp] theorem State.withFront_colour (c : Instr) : (s.withFront c).colour = s.colour := rfl
@[simp] theorem State.withFront_axes (c : Instr) : (s.withFront c).axes = s.axes := rfl
@[simp] theorem State.withFront_bridgeNext (c : Instr) : (s.withFront c).bridgeNext = s.bridgeNext := rfl
@[simp] theorem State.withFront_sense (c : Instr) : (s.withFront c).sense = s.sense := rfl
@[simp] theorem State.withFront_feed (c : Instr) : (s.withFront c).feed = s.feed := rfl
@[simp] theorem State.withFront_store (c : Instr) : (s.withFront c).store = s.store := rfl
@[simp] theorem State.withFront_settings (c : Instr) : (s.withFront c).settings = s.settings := rfl
@[simp] theorem State.withFront_setup (c : Instr) : (s.withFront c).setup = s.setup := rfl
@[simp] theorem State.withFront_stats (c : Instr) : (s.withFront c).stats = s.stats := rfl
@[simp] theorem State.withFront_pins (c : Instr) : (s.withFront c).pins = s.pins := rfl
@[simp] theorem State.withFront_pending (c : Instr) : (s.withFront c).pending = c :: s.pending := rfl

/-! ### `withRest` -/

@[simp] theorem State.withRest_clock (r : List Instr) : (s.withRest r).clock = s.clock := rfl
@[simp] theorem State.withRest_marks (r : List Instr) : (s.withRest r).marks = s.marks := rfl
@[simp] theorem State.withRest_ports (r : List Instr) : (s.withRest r).ports = s.ports := rfl
@[simp] theorem State.withRest_outbox (r : List Instr) : (s.withRest r).outbox = s.outbox := rfl
@[simp] theorem State.withRest_longestWait (r : List Instr) : (s.withRest r).longestWait = s.longestWait := rfl
@[simp] theorem State.withRest_peers (r : List Instr) : (s.withRest r).peers = s.peers := rfl
@[simp] theorem State.withRest_cues (r : List Instr) : (s.withRest r).cues = s.cues := rfl
@[simp] theorem State.withRest_play (r : List Instr) : (s.withRest r).play = s.play := rfl
@[simp] theorem State.withRest_colour (r : List Instr) : (s.withRest r).colour = s.colour := rfl
@[simp] theorem State.withRest_axes (r : List Instr) : (s.withRest r).axes = s.axes := rfl
@[simp] theorem State.withRest_bridgeNext (r : List Instr) : (s.withRest r).bridgeNext = s.bridgeNext := rfl
@[simp] theorem State.withRest_sense (r : List Instr) : (s.withRest r).sense = s.sense := rfl
@[simp] theorem State.withRest_feed (r : List Instr) : (s.withRest r).feed = s.feed := rfl
@[simp] theorem State.withRest_store (r : List Instr) : (s.withRest r).store = s.store := rfl
@[simp] theorem State.withRest_settings (r : List Instr) : (s.withRest r).settings = s.settings := rfl
@[simp] theorem State.withRest_setup (r : List Instr) : (s.withRest r).setup = s.setup := rfl
@[simp] theorem State.withRest_stats (r : List Instr) : (s.withRest r).stats = s.stats := rfl
@[simp] theorem State.withRest_pins (r : List Instr) : (s.withRest r).pins = s.pins := rfl
@[simp] theorem State.withRest_pending (r : List Instr) : (s.withRest r).pending = r := rfl

/-! ### `tally` -/

@[simp] theorem State.tally_clock (f : Stats → Stats) : (s.tally f).clock = s.clock := rfl
@[simp] theorem State.tally_marks (f : Stats → Stats) : (s.tally f).marks = s.marks := rfl
@[simp] theorem State.tally_ports (f : Stats → Stats) : (s.tally f).ports = s.ports := rfl
@[simp] theorem State.tally_outbox (f : Stats → Stats) : (s.tally f).outbox = s.outbox := rfl
@[simp] theorem State.tally_longestWait (f : Stats → Stats) : (s.tally f).longestWait = s.longestWait := rfl
@[simp] theorem State.tally_peers (f : Stats → Stats) : (s.tally f).peers = s.peers := rfl
@[simp] theorem State.tally_cues (f : Stats → Stats) : (s.tally f).cues = s.cues := rfl
@[simp] theorem State.tally_play (f : Stats → Stats) : (s.tally f).play = s.play := rfl
@[simp] theorem State.tally_colour (f : Stats → Stats) : (s.tally f).colour = s.colour := rfl
@[simp] theorem State.tally_axes (f : Stats → Stats) : (s.tally f).axes = s.axes := rfl
@[simp] theorem State.tally_bridgeNext (f : Stats → Stats) : (s.tally f).bridgeNext = s.bridgeNext := rfl
@[simp] theorem State.tally_sense (f : Stats → Stats) : (s.tally f).sense = s.sense := rfl
@[simp] theorem State.tally_feed (f : Stats → Stats) : (s.tally f).feed = s.feed := rfl
@[simp] theorem State.tally_store (f : Stats → Stats) : (s.tally f).store = s.store := rfl
@[simp] theorem State.tally_settings (f : Stats → Stats) : (s.tally f).settings = s.settings := rfl
@[simp] theorem State.tally_setup (f : Stats → Stats) : (s.tally f).setup = s.setup := rfl
@[simp] theorem State.tally_stats (f : Stats → Stats) : (s.tally f).stats = if s.setup.counting then f s.stats else s.stats := rfl
@[simp] theorem State.tally_pins (f : Stats → Stats) : (s.tally f).pins = s.pins := rfl
@[simp] theorem State.tally_pending (f : Stats → Stats) : (s.tally f).pending = s.pending := rfl

/-! ### `tallyClock` -/

@[simp] theorem State.tallyClock_clock (f : ClockStats → ClockStats) : (s.tallyClock f).clock = s.clock := rfl
@[simp] theorem State.tallyClock_marks (f : ClockStats → ClockStats) : (s.tallyClock f).marks = s.marks := rfl
@[simp] theorem State.tallyClock_ports (f : ClockStats → ClockStats) : (s.tallyClock f).ports = s.ports := rfl
@[simp] theorem State.tallyClock_outbox (f : ClockStats → ClockStats) : (s.tallyClock f).outbox = s.outbox := rfl
@[simp] theorem State.tallyClock_longestWait (f : ClockStats → ClockStats) : (s.tallyClock f).longestWait = s.longestWait := rfl
@[simp] theorem State.tallyClock_peers (f : ClockStats → ClockStats) : (s.tallyClock f).peers = s.peers := rfl
@[simp] theorem State.tallyClock_cues (f : ClockStats → ClockStats) : (s.tallyClock f).cues = s.cues := rfl
@[simp] theorem State.tallyClock_play (f : ClockStats → ClockStats) : (s.tallyClock f).play = s.play := rfl
@[simp] theorem State.tallyClock_colour (f : ClockStats → ClockStats) : (s.tallyClock f).colour = s.colour := rfl
@[simp] theorem State.tallyClock_axes (f : ClockStats → ClockStats) : (s.tallyClock f).axes = s.axes := rfl
@[simp] theorem State.tallyClock_bridgeNext (f : ClockStats → ClockStats) : (s.tallyClock f).bridgeNext = s.bridgeNext := rfl
@[simp] theorem State.tallyClock_sense (f : ClockStats → ClockStats) : (s.tallyClock f).sense = s.sense := rfl
@[simp] theorem State.tallyClock_feed (f : ClockStats → ClockStats) : (s.tallyClock f).feed = s.feed := rfl
@[simp] theorem State.tallyClock_store (f : ClockStats → ClockStats) : (s.tallyClock f).store = s.store := rfl
@[simp] theorem State.tallyClock_settings (f : ClockStats → ClockStats) : (s.tallyClock f).settings = s.settings := rfl
@[simp] theorem State.tallyClock_setup (f : ClockStats → ClockStats) : (s.tallyClock f).setup = s.setup := rfl
@[simp] theorem State.tallyClock_pins (f : ClockStats → ClockStats) : (s.tallyClock f).pins = s.pins := rfl
@[simp] theorem State.tallyClock_pending (f : ClockStats → ClockStats) : (s.tallyClock f).pending = s.pending := rfl

/-! ### `tallyPeers` -/

@[simp] theorem State.tallyPeers_clock (f : PeerStats → PeerStats) : (s.tallyPeers f).clock = s.clock := rfl
@[simp] theorem State.tallyPeers_marks (f : PeerStats → PeerStats) : (s.tallyPeers f).marks = s.marks := rfl
@[simp] theorem State.tallyPeers_ports (f : PeerStats → PeerStats) : (s.tallyPeers f).ports = s.ports := rfl
@[simp] theorem State.tallyPeers_outbox (f : PeerStats → PeerStats) : (s.tallyPeers f).outbox = s.outbox := rfl
@[simp] theorem State.tallyPeers_longestWait (f : PeerStats → PeerStats) : (s.tallyPeers f).longestWait = s.longestWait := rfl
@[simp] theorem State.tallyPeers_peers (f : PeerStats → PeerStats) : (s.tallyPeers f).peers = s.peers := rfl
@[simp] theorem State.tallyPeers_cues (f : PeerStats → PeerStats) : (s.tallyPeers f).cues = s.cues := rfl
@[simp] theorem State.tallyPeers_play (f : PeerStats → PeerStats) : (s.tallyPeers f).play = s.play := rfl
@[simp] theorem State.tallyPeers_colour (f : PeerStats → PeerStats) : (s.tallyPeers f).colour = s.colour := rfl
@[simp] theorem State.tallyPeers_axes (f : PeerStats → PeerStats) : (s.tallyPeers f).axes = s.axes := rfl
@[simp] theorem State.tallyPeers_bridgeNext (f : PeerStats → PeerStats) : (s.tallyPeers f).bridgeNext = s.bridgeNext := rfl
@[simp] theorem State.tallyPeers_sense (f : PeerStats → PeerStats) : (s.tallyPeers f).sense = s.sense := rfl
@[simp] theorem State.tallyPeers_feed (f : PeerStats → PeerStats) : (s.tallyPeers f).feed = s.feed := rfl
@[simp] theorem State.tallyPeers_store (f : PeerStats → PeerStats) : (s.tallyPeers f).store = s.store := rfl
@[simp] theorem State.tallyPeers_settings (f : PeerStats → PeerStats) : (s.tallyPeers f).settings = s.settings := rfl
@[simp] theorem State.tallyPeers_setup (f : PeerStats → PeerStats) : (s.tallyPeers f).setup = s.setup := rfl
@[simp] theorem State.tallyPeers_pins (f : PeerStats → PeerStats) : (s.tallyPeers f).pins = s.pins := rfl
@[simp] theorem State.tallyPeers_pending (f : PeerStats → PeerStats) : (s.tallyPeers f).pending = s.pending := rfl

/-! ### `tallyCues` -/

@[simp] theorem State.tallyCues_clock (f : CueStats → CueStats) : (s.tallyCues f).clock = s.clock := rfl
@[simp] theorem State.tallyCues_marks (f : CueStats → CueStats) : (s.tallyCues f).marks = s.marks := rfl
@[simp] theorem State.tallyCues_ports (f : CueStats → CueStats) : (s.tallyCues f).ports = s.ports := rfl
@[simp] theorem State.tallyCues_outbox (f : CueStats → CueStats) : (s.tallyCues f).outbox = s.outbox := rfl
@[simp] theorem State.tallyCues_longestWait (f : CueStats → CueStats) : (s.tallyCues f).longestWait = s.longestWait := rfl
@[simp] theorem State.tallyCues_peers (f : CueStats → CueStats) : (s.tallyCues f).peers = s.peers := rfl
@[simp] theorem State.tallyCues_cues (f : CueStats → CueStats) : (s.tallyCues f).cues = s.cues := rfl
@[simp] theorem State.tallyCues_play (f : CueStats → CueStats) : (s.tallyCues f).play = s.play := rfl
@[simp] theorem State.tallyCues_colour (f : CueStats → CueStats) : (s.tallyCues f).colour = s.colour := rfl
@[simp] theorem State.tallyCues_axes (f : CueStats → CueStats) : (s.tallyCues f).axes = s.axes := rfl
@[simp] theorem State.tallyCues_bridgeNext (f : CueStats → CueStats) : (s.tallyCues f).bridgeNext = s.bridgeNext := rfl
@[simp] theorem State.tallyCues_sense (f : CueStats → CueStats) : (s.tallyCues f).sense = s.sense := rfl
@[simp] theorem State.tallyCues_feed (f : CueStats → CueStats) : (s.tallyCues f).feed = s.feed := rfl
@[simp] theorem State.tallyCues_store (f : CueStats → CueStats) : (s.tallyCues f).store = s.store := rfl
@[simp] theorem State.tallyCues_settings (f : CueStats → CueStats) : (s.tallyCues f).settings = s.settings := rfl
@[simp] theorem State.tallyCues_setup (f : CueStats → CueStats) : (s.tallyCues f).setup = s.setup := rfl
@[simp] theorem State.tallyCues_pins (f : CueStats → CueStats) : (s.tallyCues f).pins = s.pins := rfl
@[simp] theorem State.tallyCues_pending (f : CueStats → CueStats) : (s.tallyCues f).pending = s.pending := rfl

/-! ### `tallyPlay` -/

@[simp] theorem State.tallyPlay_clock (f : PlayStats → PlayStats) : (s.tallyPlay f).clock = s.clock := rfl
@[simp] theorem State.tallyPlay_marks (f : PlayStats → PlayStats) : (s.tallyPlay f).marks = s.marks := rfl
@[simp] theorem State.tallyPlay_ports (f : PlayStats → PlayStats) : (s.tallyPlay f).ports = s.ports := rfl
@[simp] theorem State.tallyPlay_outbox (f : PlayStats → PlayStats) : (s.tallyPlay f).outbox = s.outbox := rfl
@[simp] theorem State.tallyPlay_longestWait (f : PlayStats → PlayStats) : (s.tallyPlay f).longestWait = s.longestWait := rfl
@[simp] theorem State.tallyPlay_peers (f : PlayStats → PlayStats) : (s.tallyPlay f).peers = s.peers := rfl
@[simp] theorem State.tallyPlay_cues (f : PlayStats → PlayStats) : (s.tallyPlay f).cues = s.cues := rfl
@[simp] theorem State.tallyPlay_play (f : PlayStats → PlayStats) : (s.tallyPlay f).play = s.play := rfl
@[simp] theorem State.tallyPlay_colour (f : PlayStats → PlayStats) : (s.tallyPlay f).colour = s.colour := rfl
@[simp] theorem State.tallyPlay_axes (f : PlayStats → PlayStats) : (s.tallyPlay f).axes = s.axes := rfl
@[simp] theorem State.tallyPlay_bridgeNext (f : PlayStats → PlayStats) : (s.tallyPlay f).bridgeNext = s.bridgeNext := rfl
@[simp] theorem State.tallyPlay_sense (f : PlayStats → PlayStats) : (s.tallyPlay f).sense = s.sense := rfl
@[simp] theorem State.tallyPlay_feed (f : PlayStats → PlayStats) : (s.tallyPlay f).feed = s.feed := rfl
@[simp] theorem State.tallyPlay_store (f : PlayStats → PlayStats) : (s.tallyPlay f).store = s.store := rfl
@[simp] theorem State.tallyPlay_settings (f : PlayStats → PlayStats) : (s.tallyPlay f).settings = s.settings := rfl
@[simp] theorem State.tallyPlay_setup (f : PlayStats → PlayStats) : (s.tallyPlay f).setup = s.setup := rfl
@[simp] theorem State.tallyPlay_pins (f : PlayStats → PlayStats) : (s.tallyPlay f).pins = s.pins := rfl
@[simp] theorem State.tallyPlay_pending (f : PlayStats → PlayStats) : (s.tallyPlay f).pending = s.pending := rfl

/-! ### `tallyPlan` -/

@[simp] theorem State.tallyPlan_clock (f : PlanStats → PlanStats) : (s.tallyPlan f).clock = s.clock := rfl
@[simp] theorem State.tallyPlan_marks (f : PlanStats → PlanStats) : (s.tallyPlan f).marks = s.marks := rfl
@[simp] theorem State.tallyPlan_ports (f : PlanStats → PlanStats) : (s.tallyPlan f).ports = s.ports := rfl
@[simp] theorem State.tallyPlan_outbox (f : PlanStats → PlanStats) : (s.tallyPlan f).outbox = s.outbox := rfl
@[simp] theorem State.tallyPlan_longestWait (f : PlanStats → PlanStats) : (s.tallyPlan f).longestWait = s.longestWait := rfl
@[simp] theorem State.tallyPlan_peers (f : PlanStats → PlanStats) : (s.tallyPlan f).peers = s.peers := rfl
@[simp] theorem State.tallyPlan_cues (f : PlanStats → PlanStats) : (s.tallyPlan f).cues = s.cues := rfl
@[simp] theorem State.tallyPlan_play (f : PlanStats → PlanStats) : (s.tallyPlan f).play = s.play := rfl
@[simp] theorem State.tallyPlan_colour (f : PlanStats → PlanStats) : (s.tallyPlan f).colour = s.colour := rfl
@[simp] theorem State.tallyPlan_axes (f : PlanStats → PlanStats) : (s.tallyPlan f).axes = s.axes := rfl
@[simp] theorem State.tallyPlan_bridgeNext (f : PlanStats → PlanStats) : (s.tallyPlan f).bridgeNext = s.bridgeNext := rfl
@[simp] theorem State.tallyPlan_sense (f : PlanStats → PlanStats) : (s.tallyPlan f).sense = s.sense := rfl
@[simp] theorem State.tallyPlan_feed (f : PlanStats → PlanStats) : (s.tallyPlan f).feed = s.feed := rfl
@[simp] theorem State.tallyPlan_store (f : PlanStats → PlanStats) : (s.tallyPlan f).store = s.store := rfl
@[simp] theorem State.tallyPlan_settings (f : PlanStats → PlanStats) : (s.tallyPlan f).settings = s.settings := rfl
@[simp] theorem State.tallyPlan_setup (f : PlanStats → PlanStats) : (s.tallyPlan f).setup = s.setup := rfl
@[simp] theorem State.tallyPlan_pins (f : PlanStats → PlanStats) : (s.tallyPlan f).pins = s.pins := rfl
@[simp] theorem State.tallyPlan_pending (f : PlanStats → PlanStats) : (s.tallyPlan f).pending = s.pending := rfl

/-! ### `tallyColour` -/

@[simp] theorem State.tallyColour_clock (f : ColourStats → ColourStats) : (s.tallyColour f).clock = s.clock := rfl
@[simp] theorem State.tallyColour_marks (f : ColourStats → ColourStats) : (s.tallyColour f).marks = s.marks := rfl
@[simp] theorem State.tallyColour_ports (f : ColourStats → ColourStats) : (s.tallyColour f).ports = s.ports := rfl
@[simp] theorem State.tallyColour_outbox (f : ColourStats → ColourStats) : (s.tallyColour f).outbox = s.outbox := rfl
@[simp] theorem State.tallyColour_longestWait (f : ColourStats → ColourStats) : (s.tallyColour f).longestWait = s.longestWait := rfl
@[simp] theorem State.tallyColour_peers (f : ColourStats → ColourStats) : (s.tallyColour f).peers = s.peers := rfl
@[simp] theorem State.tallyColour_cues (f : ColourStats → ColourStats) : (s.tallyColour f).cues = s.cues := rfl
@[simp] theorem State.tallyColour_play (f : ColourStats → ColourStats) : (s.tallyColour f).play = s.play := rfl
@[simp] theorem State.tallyColour_colour (f : ColourStats → ColourStats) : (s.tallyColour f).colour = s.colour := rfl
@[simp] theorem State.tallyColour_axes (f : ColourStats → ColourStats) : (s.tallyColour f).axes = s.axes := rfl
@[simp] theorem State.tallyColour_bridgeNext (f : ColourStats → ColourStats) : (s.tallyColour f).bridgeNext = s.bridgeNext := rfl
@[simp] theorem State.tallyColour_sense (f : ColourStats → ColourStats) : (s.tallyColour f).sense = s.sense := rfl
@[simp] theorem State.tallyColour_feed (f : ColourStats → ColourStats) : (s.tallyColour f).feed = s.feed := rfl
@[simp] theorem State.tallyColour_store (f : ColourStats → ColourStats) : (s.tallyColour f).store = s.store := rfl
@[simp] theorem State.tallyColour_settings (f : ColourStats → ColourStats) : (s.tallyColour f).settings = s.settings := rfl
@[simp] theorem State.tallyColour_setup (f : ColourStats → ColourStats) : (s.tallyColour f).setup = s.setup := rfl
@[simp] theorem State.tallyColour_pins (f : ColourStats → ColourStats) : (s.tallyColour f).pins = s.pins := rfl
@[simp] theorem State.tallyColour_pending (f : ColourStats → ColourStats) : (s.tallyColour f).pending = s.pending := rfl

/-! ### `tallyFeed` -/

@[simp] theorem State.tallyFeed_clock (f : FeedStats → FeedStats) : (s.tallyFeed f).clock = s.clock := rfl
@[simp] theorem State.tallyFeed_marks (f : FeedStats → FeedStats) : (s.tallyFeed f).marks = s.marks := rfl
@[simp] theorem State.tallyFeed_ports (f : FeedStats → FeedStats) : (s.tallyFeed f).ports = s.ports := rfl
@[simp] theorem State.tallyFeed_outbox (f : FeedStats → FeedStats) : (s.tallyFeed f).outbox = s.outbox := rfl
@[simp] theorem State.tallyFeed_longestWait (f : FeedStats → FeedStats) : (s.tallyFeed f).longestWait = s.longestWait := rfl
@[simp] theorem State.tallyFeed_peers (f : FeedStats → FeedStats) : (s.tallyFeed f).peers = s.peers := rfl
@[simp] theorem State.tallyFeed_cues (f : FeedStats → FeedStats) : (s.tallyFeed f).cues = s.cues := rfl
@[simp] theorem State.tallyFeed_play (f : FeedStats → FeedStats) : (s.tallyFeed f).play = s.play := rfl
@[simp] theorem State.tallyFeed_colour (f : FeedStats → FeedStats) : (s.tallyFeed f).colour = s.colour := rfl
@[simp] theorem State.tallyFeed_axes (f : FeedStats → FeedStats) : (s.tallyFeed f).axes = s.axes := rfl
@[simp] theorem State.tallyFeed_bridgeNext (f : FeedStats → FeedStats) : (s.tallyFeed f).bridgeNext = s.bridgeNext := rfl
@[simp] theorem State.tallyFeed_sense (f : FeedStats → FeedStats) : (s.tallyFeed f).sense = s.sense := rfl
@[simp] theorem State.tallyFeed_feed (f : FeedStats → FeedStats) : (s.tallyFeed f).feed = s.feed := rfl
@[simp] theorem State.tallyFeed_store (f : FeedStats → FeedStats) : (s.tallyFeed f).store = s.store := rfl
@[simp] theorem State.tallyFeed_settings (f : FeedStats → FeedStats) : (s.tallyFeed f).settings = s.settings := rfl
@[simp] theorem State.tallyFeed_setup (f : FeedStats → FeedStats) : (s.tallyFeed f).setup = s.setup := rfl
@[simp] theorem State.tallyFeed_pins (f : FeedStats → FeedStats) : (s.tallyFeed f).pins = s.pins := rfl
@[simp] theorem State.tallyFeed_pending (f : FeedStats → FeedStats) : (s.tallyFeed f).pending = s.pending := rfl

/-! ### `tallySetup` -/

@[simp] theorem State.tallySetup_clock (f : SetupStats → SetupStats) : (s.tallySetup f).clock = s.clock := rfl
@[simp] theorem State.tallySetup_marks (f : SetupStats → SetupStats) : (s.tallySetup f).marks = s.marks := rfl
@[simp] theorem State.tallySetup_ports (f : SetupStats → SetupStats) : (s.tallySetup f).ports = s.ports := rfl
@[simp] theorem State.tallySetup_outbox (f : SetupStats → SetupStats) : (s.tallySetup f).outbox = s.outbox := rfl
@[simp] theorem State.tallySetup_longestWait (f : SetupStats → SetupStats) : (s.tallySetup f).longestWait = s.longestWait := rfl
@[simp] theorem State.tallySetup_peers (f : SetupStats → SetupStats) : (s.tallySetup f).peers = s.peers := rfl
@[simp] theorem State.tallySetup_cues (f : SetupStats → SetupStats) : (s.tallySetup f).cues = s.cues := rfl
@[simp] theorem State.tallySetup_play (f : SetupStats → SetupStats) : (s.tallySetup f).play = s.play := rfl
@[simp] theorem State.tallySetup_colour (f : SetupStats → SetupStats) : (s.tallySetup f).colour = s.colour := rfl
@[simp] theorem State.tallySetup_axes (f : SetupStats → SetupStats) : (s.tallySetup f).axes = s.axes := rfl
@[simp] theorem State.tallySetup_bridgeNext (f : SetupStats → SetupStats) : (s.tallySetup f).bridgeNext = s.bridgeNext := rfl
@[simp] theorem State.tallySetup_sense (f : SetupStats → SetupStats) : (s.tallySetup f).sense = s.sense := rfl
@[simp] theorem State.tallySetup_feed (f : SetupStats → SetupStats) : (s.tallySetup f).feed = s.feed := rfl
@[simp] theorem State.tallySetup_store (f : SetupStats → SetupStats) : (s.tallySetup f).store = s.store := rfl
@[simp] theorem State.tallySetup_settings (f : SetupStats → SetupStats) : (s.tallySetup f).settings = s.settings := rfl
@[simp] theorem State.tallySetup_setup (f : SetupStats → SetupStats) : (s.tallySetup f).setup = s.setup := rfl
@[simp] theorem State.tallySetup_pins (f : SetupStats → SetupStats) : (s.tallySetup f).pins = s.pins := rfl
@[simp] theorem State.tallySetup_pending (f : SetupStats → SetupStats) : (s.tallySetup f).pending = s.pending := rfl

/-! ### `tallyPort` -/

@[simp] theorem State.tallyPort_clock (p : Port) (f : PortStats → PortStats) : (s.tallyPort p f).clock = s.clock := rfl
@[simp] theorem State.tallyPort_marks (p : Port) (f : PortStats → PortStats) : (s.tallyPort p f).marks = s.marks := rfl
@[simp] theorem State.tallyPort_ports (p : Port) (f : PortStats → PortStats) : (s.tallyPort p f).ports = s.ports := rfl
@[simp] theorem State.tallyPort_outbox (p : Port) (f : PortStats → PortStats) : (s.tallyPort p f).outbox = s.outbox := rfl
@[simp] theorem State.tallyPort_longestWait (p : Port) (f : PortStats → PortStats) : (s.tallyPort p f).longestWait = s.longestWait := rfl
@[simp] theorem State.tallyPort_peers (p : Port) (f : PortStats → PortStats) : (s.tallyPort p f).peers = s.peers := rfl
@[simp] theorem State.tallyPort_cues (p : Port) (f : PortStats → PortStats) : (s.tallyPort p f).cues = s.cues := rfl
@[simp] theorem State.tallyPort_play (p : Port) (f : PortStats → PortStats) : (s.tallyPort p f).play = s.play := rfl
@[simp] theorem State.tallyPort_colour (p : Port) (f : PortStats → PortStats) : (s.tallyPort p f).colour = s.colour := rfl
@[simp] theorem State.tallyPort_axes (p : Port) (f : PortStats → PortStats) : (s.tallyPort p f).axes = s.axes := rfl
@[simp] theorem State.tallyPort_bridgeNext (p : Port) (f : PortStats → PortStats) : (s.tallyPort p f).bridgeNext = s.bridgeNext := rfl
@[simp] theorem State.tallyPort_sense (p : Port) (f : PortStats → PortStats) : (s.tallyPort p f).sense = s.sense := rfl
@[simp] theorem State.tallyPort_feed (p : Port) (f : PortStats → PortStats) : (s.tallyPort p f).feed = s.feed := rfl
@[simp] theorem State.tallyPort_store (p : Port) (f : PortStats → PortStats) : (s.tallyPort p f).store = s.store := rfl
@[simp] theorem State.tallyPort_settings (p : Port) (f : PortStats → PortStats) : (s.tallyPort p f).settings = s.settings := rfl
@[simp] theorem State.tallyPort_setup (p : Port) (f : PortStats → PortStats) : (s.tallyPort p f).setup = s.setup := rfl
@[simp] theorem State.tallyPort_pins (p : Port) (f : PortStats → PortStats) : (s.tallyPort p f).pins = s.pins := rfl
@[simp] theorem State.tallyPort_pending (p : Port) (f : PortStats → PortStats) : (s.tallyPort p f).pending = s.pending := rfl

/-! ### `tallyAxis` -/

@[simp] theorem State.tallyAxis_clock (x : Axis) (f : AxisStats → AxisStats) : (s.tallyAxis x f).clock = s.clock := rfl
@[simp] theorem State.tallyAxis_marks (x : Axis) (f : AxisStats → AxisStats) : (s.tallyAxis x f).marks = s.marks := rfl
@[simp] theorem State.tallyAxis_ports (x : Axis) (f : AxisStats → AxisStats) : (s.tallyAxis x f).ports = s.ports := rfl
@[simp] theorem State.tallyAxis_outbox (x : Axis) (f : AxisStats → AxisStats) : (s.tallyAxis x f).outbox = s.outbox := rfl
@[simp] theorem State.tallyAxis_longestWait (x : Axis) (f : AxisStats → AxisStats) : (s.tallyAxis x f).longestWait = s.longestWait := rfl
@[simp] theorem State.tallyAxis_peers (x : Axis) (f : AxisStats → AxisStats) : (s.tallyAxis x f).peers = s.peers := rfl
@[simp] theorem State.tallyAxis_cues (x : Axis) (f : AxisStats → AxisStats) : (s.tallyAxis x f).cues = s.cues := rfl
@[simp] theorem State.tallyAxis_play (x : Axis) (f : AxisStats → AxisStats) : (s.tallyAxis x f).play = s.play := rfl
@[simp] theorem State.tallyAxis_colour (x : Axis) (f : AxisStats → AxisStats) : (s.tallyAxis x f).colour = s.colour := rfl
@[simp] theorem State.tallyAxis_axes (x : Axis) (f : AxisStats → AxisStats) : (s.tallyAxis x f).axes = s.axes := rfl
@[simp] theorem State.tallyAxis_bridgeNext (x : Axis) (f : AxisStats → AxisStats) : (s.tallyAxis x f).bridgeNext = s.bridgeNext := rfl
@[simp] theorem State.tallyAxis_sense (x : Axis) (f : AxisStats → AxisStats) : (s.tallyAxis x f).sense = s.sense := rfl
@[simp] theorem State.tallyAxis_feed (x : Axis) (f : AxisStats → AxisStats) : (s.tallyAxis x f).feed = s.feed := rfl
@[simp] theorem State.tallyAxis_store (x : Axis) (f : AxisStats → AxisStats) : (s.tallyAxis x f).store = s.store := rfl
@[simp] theorem State.tallyAxis_settings (x : Axis) (f : AxisStats → AxisStats) : (s.tallyAxis x f).settings = s.settings := rfl
@[simp] theorem State.tallyAxis_setup (x : Axis) (f : AxisStats → AxisStats) : (s.tallyAxis x f).setup = s.setup := rfl
@[simp] theorem State.tallyAxis_pins (x : Axis) (f : AxisStats → AxisStats) : (s.tallyAxis x f).pins = s.pins := rfl
@[simp] theorem State.tallyAxis_pending (x : Axis) (f : AxisStats → AxisStats) : (s.tallyAxis x f).pending = s.pending := rfl

/-! ### Values kept for each port, axis, emitter and class -/

@[simp] theorem PerPort.get_set_self {α : Type} (v : PerPort α) (p : Port) (x : α) : (v.set p x).get p = x := by
  cases p <;> rfl

theorem PerPort.get_set {α : Type} (v : PerPort α) (p q : Port) (x : α) :
    (v.set p x).get q = if q = p then x else v.get q := by
  cases p <;> cases q <;> rfl

@[simp] theorem PerPort.get_set_of_ne {α : Type} (v : PerPort α) {p q : Port} (x : α) (h : q ≠ p) :
    (v.set p x).get q = v.get q := by
  rw [PerPort.get_set, if_neg h]

@[simp] theorem PerPort.set_get {α : Type} (v : PerPort α) (p : Port) : v.set p (v.get p) = v := by
  cases p <;> rfl

@[simp] theorem PerPort.set_set {α : Type} (v : PerPort α) (p : Port) (x y : α) : (v.set p x).set p y = v.set p y := by
  cases p <;> rfl

@[simp] theorem PerAxis.get_set_self {α : Type} (v : PerAxis α) (p : Axis) (x : α) : (v.set p x).get p = x := by
  cases p <;> rfl

theorem PerAxis.get_set {α : Type} (v : PerAxis α) (p q : Axis) (x : α) :
    (v.set p x).get q = if q = p then x else v.get q := by
  cases p <;> cases q <;> rfl

@[simp] theorem PerAxis.get_set_of_ne {α : Type} (v : PerAxis α) {p q : Axis} (x : α) (h : q ≠ p) :
    (v.set p x).get q = v.get q := by
  rw [PerAxis.get_set, if_neg h]

@[simp] theorem PerAxis.set_get {α : Type} (v : PerAxis α) (p : Axis) : v.set p (v.get p) = v := by
  cases p <;> rfl

@[simp] theorem PerAxis.set_set {α : Type} (v : PerAxis α) (p : Axis) (x y : α) : (v.set p x).set p y = v.set p y := by
  cases p <;> rfl

@[simp] theorem PerEmitter.get_of {α : Type} (f : Emitter → α) (e : Emitter) : (PerEmitter.of f).get e = f e := by
  cases e <;> rfl

@[simp] theorem Outbox.get_set_self (o : Outbox) (c : FrameClass) (x : Slot) : (o.set c x).get c = x := by
  cases c <;> rfl

theorem Outbox.get_set (o : Outbox) (c d : FrameClass) (x : Slot) : (o.set c x).get d = if d = c then x else o.get d := by
  cases c <;> cases d <;> rfl

@[simp] theorem Outbox.get_set_of_ne (o : Outbox) {c d : FrameClass} (x : Slot) (h : d ≠ c) :
    (o.set c x).get d = o.get d := by
  rw [Outbox.get_set, if_neg h]

@[simp] theorem otherPort_ne (p : Port) : otherPort p ≠ p := by
  cases p <;> decide

@[simp] theorem ne_otherPort (p : Port) : p ≠ otherPort p := by
  cases p <;> decide

@[simp] theorem otherPort_otherPort (p : Port) : otherPort (otherPort p) = p := by
  cases p <;> rfl

end Sys2Proof.Machine
end

