-- ==== Sys2Proof/Laws/Frames.lean ====
section
/-! SUPPORT. What each shared operation leaves alone: one lemma for each operation and each field it does not touch. -/

namespace Sys2Proof.Machine

variable (s : State)

/-! ### The outbox -/

@[simp] theorem State.supersede_frame (c : FrameClass) :
    (s.supersede c).clock = s.clock ∧ (s.supersede c).marks = s.marks ∧ (s.supersede c).outbox = s.outbox ∧
      (s.supersede c).longestWait = s.longestWait ∧ (s.supersede c).peers = s.peers ∧ (s.supersede c).cues = s.cues ∧
      (s.supersede c).play = s.play ∧ (s.supersede c).colour = s.colour ∧ (s.supersede c).axes = s.axes ∧
      (s.supersede c).bridgeNext = s.bridgeNext ∧ (s.supersede c).sense = s.sense ∧ (s.supersede c).feed = s.feed ∧
      (s.supersede c).store = s.store ∧ (s.supersede c).settings = s.settings ∧ (s.supersede c).setup = s.setup ∧
      (s.supersede c).stats = s.stats ∧ (s.supersede c).pins = s.pins ∧ (s.supersede c).pending = s.pending := by
  simp only [State.supersede]
  simp

@[simp] theorem State.freeEntry_frame (c : FrameClass) (n : Nat) :
    (s.freeEntry c n).clock = s.clock ∧ (s.freeEntry c n).marks = s.marks ∧ (s.freeEntry c n).ports = s.ports ∧
      (s.freeEntry c n).peers = s.peers ∧ (s.freeEntry c n).cues = s.cues ∧ (s.freeEntry c n).play = s.play ∧
      (s.freeEntry c n).colour = s.colour ∧ (s.freeEntry c n).axes = s.axes ∧
      (s.freeEntry c n).bridgeNext = s.bridgeNext ∧ (s.freeEntry c n).sense = s.sense ∧
      (s.freeEntry c n).store = s.store ∧ (s.freeEntry c n).settings = s.settings ∧
      (s.freeEntry c n).setup = s.setup ∧ (s.freeEntry c n).stats = s.stats ∧ (s.freeEntry c n).pins = s.pins ∧
      (s.freeEntry c n).pending = s.pending := by
  simp only [State.freeEntry]
  (repeat' split) <;> simp

@[simp] theorem State.freeIfCovered_frame (c : FrameClass) :
    (s.freeIfCovered c).clock = s.clock ∧ (s.freeIfCovered c).marks = s.marks ∧ (s.freeIfCovered c).ports = s.ports ∧
      (s.freeIfCovered c).peers = s.peers ∧ (s.freeIfCovered c).cues = s.cues ∧ (s.freeIfCovered c).play = s.play ∧
      (s.freeIfCovered c).colour = s.colour ∧ (s.freeIfCovered c).axes = s.axes ∧
      (s.freeIfCovered c).bridgeNext = s.bridgeNext ∧ (s.freeIfCovered c).sense = s.sense ∧
      (s.freeIfCovered c).store = s.store ∧ (s.freeIfCovered c).settings = s.settings ∧
      (s.freeIfCovered c).setup = s.setup ∧ (s.freeIfCovered c).stats = s.stats ∧ (s.freeIfCovered c).pins = s.pins ∧
      (s.freeIfCovered c).pending = s.pending := by
  simp only [State.freeIfCovered]
  (repeat' split) <;> simp

@[simp] theorem State.place_frame (c : FrameClass) (d : Byte) (p : List Byte) :
    (s.place c d p).clock = s.clock ∧ (s.place c d p).marks = s.marks ∧ (s.place c d p).peers = s.peers ∧
      (s.place c d p).cues = s.cues ∧ (s.place c d p).play = s.play ∧ (s.place c d p).colour = s.colour ∧
      (s.place c d p).axes = s.axes ∧ (s.place c d p).bridgeNext = s.bridgeNext ∧ (s.place c d p).sense = s.sense ∧
      (s.place c d p).store = s.store ∧ (s.place c d p).settings = s.settings ∧ (s.place c d p).setup = s.setup ∧
      (s.place c d p).stats = s.stats ∧ (s.place c d p).pins = s.pins ∧ (s.place c d p).pending = s.pending := by
  simp only [State.place]
  (repeat' split) <;> simp

/-! ### The Cue Store -/

@[simp] theorem State.refuse_frame (k : RefusalKind) (c o : Nat) :
    (s.refuse k c o).clock = s.clock ∧ (s.refuse k c o).marks = s.marks ∧ (s.refuse k c o).ports = s.ports ∧
      (s.refuse k c o).outbox = s.outbox ∧ (s.refuse k c o).longestWait = s.longestWait ∧
      (s.refuse k c o).peers = s.peers ∧ (s.refuse k c o).play = s.play ∧ (s.refuse k c o).colour = s.colour ∧
      (s.refuse k c o).axes = s.axes ∧ (s.refuse k c o).bridgeNext = s.bridgeNext ∧
      (s.refuse k c o).sense = s.sense ∧ (s.refuse k c o).feed = s.feed ∧ (s.refuse k c o).store = s.store ∧
      (s.refuse k c o).settings = s.settings ∧ (s.refuse k c o).setup = s.setup ∧ (s.refuse k c o).pins = s.pins ∧
      (s.refuse k c o).pending = s.pending := by
  simp only [State.refuse]
  simp

@[simp] theorem State.storeLoad_frame (f : CueLoadFields) :
    (s.storeLoad f).clock = s.clock ∧ (s.storeLoad f).marks = s.marks ∧ (s.storeLoad f).ports = s.ports ∧
      (s.storeLoad f).outbox = s.outbox ∧ (s.storeLoad f).longestWait = s.longestWait ∧
      (s.storeLoad f).peers = s.peers ∧ (s.storeLoad f).play = s.play ∧ (s.storeLoad f).colour = s.colour ∧
      (s.storeLoad f).axes = s.axes ∧ (s.storeLoad f).bridgeNext = s.bridgeNext ∧ (s.storeLoad f).sense = s.sense ∧
      (s.storeLoad f).feed = s.feed ∧ (s.storeLoad f).store = s.store ∧ (s.storeLoad f).settings = s.settings ∧
      (s.storeLoad f).setup = s.setup ∧ (s.storeLoad f).pins = s.pins ∧ (s.storeLoad f).pending = s.pending := by
  simp only [State.storeLoad]
  (repeat' split) <;> simp

@[simp] theorem State.takeLoad_frame (f : CueLoadFields) (o : Nat) :
    (s.takeLoad f o).clock = s.clock ∧ (s.takeLoad f o).marks = s.marks ∧ (s.takeLoad f o).ports = s.ports ∧
      (s.takeLoad f o).outbox = s.outbox ∧ (s.takeLoad f o).longestWait = s.longestWait ∧
      (s.takeLoad f o).peers = s.peers ∧ (s.takeLoad f o).play = s.play ∧ (s.takeLoad f o).colour = s.colour ∧
      (s.takeLoad f o).axes = s.axes ∧ (s.takeLoad f o).bridgeNext = s.bridgeNext ∧
      (s.takeLoad f o).sense = s.sense ∧ (s.takeLoad f o).feed = s.feed ∧ (s.takeLoad f o).store = s.store ∧
      (s.takeLoad f o).settings = s.settings ∧ (s.takeLoad f o).setup = s.setup ∧ (s.takeLoad f o).pins = s.pins ∧
      (s.takeLoad f o).pending = s.pending := by
  simp only [State.takeLoad]
  (repeat' split) <;> simp

@[simp] theorem State.takeClear_frame (l h o : Nat) :
    (s.takeClear l h o).clock = s.clock ∧ (s.takeClear l h o).marks = s.marks ∧ (s.takeClear l h o).ports = s.ports ∧
      (s.takeClear l h o).outbox = s.outbox ∧ (s.takeClear l h o).longestWait = s.longestWait ∧
      (s.takeClear l h o).peers = s.peers ∧ (s.takeClear l h o).play = s.play ∧
      (s.takeClear l h o).colour = s.colour ∧ (s.takeClear l h o).axes = s.axes ∧
      (s.takeClear l h o).bridgeNext = s.bridgeNext ∧ (s.takeClear l h o).sense = s.sense ∧
      (s.takeClear l h o).feed = s.feed ∧ (s.takeClear l h o).store = s.store ∧
      (s.takeClear l h o).settings = s.settings ∧ (s.takeClear l h o).setup = s.setup ∧
      (s.takeClear l h o).pins = s.pins ∧ (s.takeClear l h o).pending = s.pending := by
  simp only [State.takeClear]
  (repeat' split) <;> simp

@[simp] theorem State.takeProtect_frame (l o : Nat) :
    (s.takeProtect l o).clock = s.clock ∧ (s.takeProtect l o).marks = s.marks ∧ (s.takeProtect l o).ports = s.ports ∧
      (s.takeProtect l o).outbox = s.outbox ∧ (s.takeProtect l o).longestWait = s.longestWait ∧
      (s.takeProtect l o).peers = s.peers ∧ (s.takeProtect l o).play = s.play ∧
      (s.takeProtect l o).colour = s.colour ∧ (s.takeProtect l o).axes = s.axes ∧
      (s.takeProtect l o).bridgeNext = s.bridgeNext ∧ (s.takeProtect l o).sense = s.sense ∧
      (s.takeProtect l o).feed = s.feed ∧ (s.takeProtect l o).store = s.store ∧
      (s.takeProtect l o).settings = s.settings ∧ (s.takeProtect l o).setup = s.setup ∧
      (s.takeProtect l o).pins = s.pins ∧ (s.takeProtect l o).pending = s.pending := by
  simp only [State.takeProtect]
  (repeat' split) <;> simp

/-! ### Planning and gathers -/

@[simp] theorem State.countStretched_frame (p : Plan) :
    (s.countStretched p).clock = s.clock ∧ (s.countStretched p).marks = s.marks ∧
      (s.countStretched p).ports = s.ports ∧ (s.countStretched p).outbox = s.outbox ∧
      (s.countStretched p).longestWait = s.longestWait ∧ (s.countStretched p).peers = s.peers ∧
      (s.countStretched p).cues = s.cues ∧ (s.countStretched p).play = s.play ∧
      (s.countStretched p).colour = s.colour ∧ (s.countStretched p).axes = s.axes ∧
      (s.countStretched p).bridgeNext = s.bridgeNext ∧ (s.countStretched p).sense = s.sense ∧
      (s.countStretched p).feed = s.feed ∧ (s.countStretched p).store = s.store ∧
      (s.countStretched p).settings = s.settings ∧ (s.countStretched p).setup = s.setup ∧
      (s.countStretched p).pins = s.pins ∧ (s.countStretched p).pending = s.pending := by
  simp only [State.countStretched]
  (repeat' split) <;> simp

@[simp] theorem State.setPlain_frame (a b : PerAxis Int) (m : Nat) (t n : Int) :
    (s.setPlain a b m t n).clock = s.clock ∧ (s.setPlain a b m t n).marks = s.marks ∧
      (s.setPlain a b m t n).ports = s.ports ∧ (s.setPlain a b m t n).outbox = s.outbox ∧
      (s.setPlain a b m t n).longestWait = s.longestWait ∧ (s.setPlain a b m t n).peers = s.peers ∧
      (s.setPlain a b m t n).cues = s.cues ∧ (s.setPlain a b m t n).colour = s.colour ∧
      (s.setPlain a b m t n).axes = s.axes ∧ (s.setPlain a b m t n).bridgeNext = s.bridgeNext ∧
      (s.setPlain a b m t n).sense = s.sense ∧ (s.setPlain a b m t n).feed = s.feed ∧
      (s.setPlain a b m t n).store = s.store ∧ (s.setPlain a b m t n).settings = s.settings ∧
      (s.setPlain a b m t n).setup = s.setup ∧ (s.setPlain a b m t n).pins = s.pins ∧
      (s.setPlain a b m t n).pending = s.pending := by
  simp only [State.setPlain]
  simp

@[simp] theorem State.finishGather_frame (g : Gather) :
    (s.finishGather g).clock = s.clock ∧ (s.finishGather g).marks = s.marks ∧ (s.finishGather g).ports = s.ports ∧
      (s.finishGather g).outbox = s.outbox ∧ (s.finishGather g).longestWait = s.longestWait ∧
      (s.finishGather g).peers = s.peers ∧ (s.finishGather g).cues = s.cues ∧ (s.finishGather g).colour = s.colour ∧
      (s.finishGather g).axes = s.axes ∧ (s.finishGather g).bridgeNext = s.bridgeNext ∧
      (s.finishGather g).sense = s.sense ∧ (s.finishGather g).feed = s.feed ∧ (s.finishGather g).store = s.store ∧
      (s.finishGather g).settings = s.settings ∧ (s.finishGather g).setup = s.setup ∧
      (s.finishGather g).stats = s.stats ∧ (s.finishGather g).pins = s.pins ∧
      (s.finishGather g).pending = s.pending := by
  simp only [State.finishGather]
  simp

@[simp] theorem State.closeGather_frame (g : Gather) :
    (s.closeGather g).clock = s.clock ∧ (s.closeGather g).marks = s.marks ∧ (s.closeGather g).ports = s.ports ∧
      (s.closeGather g).outbox = s.outbox ∧ (s.closeGather g).longestWait = s.longestWait ∧
      (s.closeGather g).peers = s.peers ∧ (s.closeGather g).cues = s.cues ∧ (s.closeGather g).colour = s.colour ∧
      (s.closeGather g).axes = s.axes ∧ (s.closeGather g).bridgeNext = s.bridgeNext ∧
      (s.closeGather g).sense = s.sense ∧ (s.closeGather g).feed = s.feed ∧ (s.closeGather g).store = s.store ∧
      (s.closeGather g).settings = s.settings ∧ (s.closeGather g).setup = s.setup ∧ (s.closeGather g).pins = s.pins ∧
      (s.closeGather g).pending = s.pending := by
  simp only [State.closeGather]
  (repeat' split) <;> simp

@[simp] theorem State.cancelGather_frame :
    (s.cancelGather).clock = s.clock ∧ (s.cancelGather).marks = s.marks ∧ (s.cancelGather).ports = s.ports ∧
      (s.cancelGather).outbox = s.outbox ∧ (s.cancelGather).longestWait = s.longestWait ∧
      (s.cancelGather).peers = s.peers ∧ (s.cancelGather).cues = s.cues ∧ (s.cancelGather).colour = s.colour ∧
      (s.cancelGather).axes = s.axes ∧ (s.cancelGather).bridgeNext = s.bridgeNext ∧
      (s.cancelGather).sense = s.sense ∧ (s.cancelGather).feed = s.feed ∧ (s.cancelGather).store = s.store ∧
      (s.cancelGather).settings = s.settings ∧ (s.cancelGather).setup = s.setup ∧ (s.cancelGather).pins = s.pins ∧
      (s.cancelGather).pending = s.pending := by
  simp only [State.cancelGather]
  (repeat' split) <;> simp

@[simp] theorem State.openGather_frame (a b : PerAxis Int) (m g q : Nat) (t d : Int) :
    (s.openGather a b m g q t d).clock = s.clock ∧ (s.openGather a b m g q t d).marks = s.marks ∧
      (s.openGather a b m g q t d).peers = s.peers ∧ (s.openGather a b m g q t d).cues = s.cues ∧
      (s.openGather a b m g q t d).colour = s.colour ∧ (s.openGather a b m g q t d).axes = s.axes ∧
      (s.openGather a b m g q t d).bridgeNext = s.bridgeNext ∧ (s.openGather a b m g q t d).sense = s.sense ∧
      (s.openGather a b m g q t d).store = s.store ∧ (s.openGather a b m g q t d).settings = s.settings ∧
      (s.openGather a b m g q t d).setup = s.setup ∧ (s.openGather a b m g q t d).pins = s.pins ∧
      (s.openGather a b m g q t d).pending = s.pending := by
  simp only [State.openGather]
  (repeat' split) <;> simp

@[simp] theorem State.keepEarly_frame (m : MoveNoteFields) :
    (s.keepEarly m).clock = s.clock ∧ (s.keepEarly m).marks = s.marks ∧ (s.keepEarly m).ports = s.ports ∧
      (s.keepEarly m).outbox = s.outbox ∧ (s.keepEarly m).longestWait = s.longestWait ∧
      (s.keepEarly m).peers = s.peers ∧ (s.keepEarly m).cues = s.cues ∧ (s.keepEarly m).colour = s.colour ∧
      (s.keepEarly m).axes = s.axes ∧ (s.keepEarly m).bridgeNext = s.bridgeNext ∧ (s.keepEarly m).sense = s.sense ∧
      (s.keepEarly m).feed = s.feed ∧ (s.keepEarly m).store = s.store ∧ (s.keepEarly m).settings = s.settings ∧
      (s.keepEarly m).setup = s.setup ∧ (s.keepEarly m).pins = s.pins ∧ (s.keepEarly m).pending = s.pending := by
  simp only [State.keepEarly]
  (repeat' split) <;> simp

@[simp] theorem State.takeMoveNote_frame (m : MoveNoteFields) :
    (s.takeMoveNote m).clock = s.clock ∧ (s.takeMoveNote m).marks = s.marks ∧ (s.takeMoveNote m).ports = s.ports ∧
      (s.takeMoveNote m).outbox = s.outbox ∧ (s.takeMoveNote m).longestWait = s.longestWait ∧
      (s.takeMoveNote m).peers = s.peers ∧ (s.takeMoveNote m).cues = s.cues ∧ (s.takeMoveNote m).colour = s.colour ∧
      (s.takeMoveNote m).axes = s.axes ∧ (s.takeMoveNote m).bridgeNext = s.bridgeNext ∧
      (s.takeMoveNote m).sense = s.sense ∧ (s.takeMoveNote m).feed = s.feed ∧ (s.takeMoveNote m).store = s.store ∧
      (s.takeMoveNote m).settings = s.settings ∧ (s.takeMoveNote m).setup = s.setup ∧
      (s.takeMoveNote m).pins = s.pins ∧ (s.takeMoveNote m).pending = s.pending := by
  simp only [State.takeMoveNote]
  (repeat' split) <;> simp

/-! ### The Playback Unit -/

@[simp] theorem State.tickLanes_frame (g : LaneGroup) :
    (s.tickLanes g).clock = s.clock ∧ (s.tickLanes g).marks = s.marks ∧ (s.tickLanes g).ports = s.ports ∧
      (s.tickLanes g).outbox = s.outbox ∧ (s.tickLanes g).longestWait = s.longestWait ∧
      (s.tickLanes g).peers = s.peers ∧ (s.tickLanes g).cues = s.cues ∧ (s.tickLanes g).colour = s.colour ∧
      (s.tickLanes g).axes = s.axes ∧ (s.tickLanes g).bridgeNext = s.bridgeNext ∧ (s.tickLanes g).sense = s.sense ∧
      (s.tickLanes g).feed = s.feed ∧ (s.tickLanes g).store = s.store ∧ (s.tickLanes g).settings = s.settings ∧
      (s.tickLanes g).setup = s.setup ∧ (s.tickLanes g).stats = s.stats ∧ (s.tickLanes g).pins = s.pins ∧
      (s.tickLanes g).pending = s.pending := by
  simp only [State.tickLanes]
  (repeat' split) <;> simp

@[simp] theorem State.endGatherForTake_frame (q : Cue) :
    (s.endGatherForTake q).clock = s.clock ∧ (s.endGatherForTake q).marks = s.marks ∧
      (s.endGatherForTake q).ports = s.ports ∧ (s.endGatherForTake q).outbox = s.outbox ∧
      (s.endGatherForTake q).longestWait = s.longestWait ∧ (s.endGatherForTake q).peers = s.peers ∧
      (s.endGatherForTake q).cues = s.cues ∧ (s.endGatherForTake q).colour = s.colour ∧
      (s.endGatherForTake q).axes = s.axes ∧ (s.endGatherForTake q).bridgeNext = s.bridgeNext ∧
      (s.endGatherForTake q).sense = s.sense ∧ (s.endGatherForTake q).feed = s.feed ∧
      (s.endGatherForTake q).store = s.store ∧ (s.endGatherForTake q).settings = s.settings ∧
      (s.endGatherForTake q).setup = s.setup ∧ (s.endGatherForTake q).pins = s.pins ∧
      (s.endGatherForTake q).pending = s.pending := by
  simp only [State.endGatherForTake]
  (repeat' split) <;> simp

@[simp] theorem State.setPosition_frame (q : Cue) (p : PosPart) (t : Int) (u : Bool) :
    (s.setPosition q p t u).clock = s.clock ∧ (s.setPosition q p t u).marks = s.marks ∧
      (s.setPosition q p t u).peers = s.peers ∧ (s.setPosition q p t u).cues = s.cues ∧
      (s.setPosition q p t u).colour = s.colour ∧ (s.setPosition q p t u).axes = s.axes ∧
      (s.setPosition q p t u).bridgeNext = s.bridgeNext ∧ (s.setPosition q p t u).sense = s.sense ∧
      (s.setPosition q p t u).store = s.store ∧ (s.setPosition q p t u).settings = s.settings ∧
      (s.setPosition q p t u).setup = s.setup ∧ (s.setPosition q p t u).pins = s.pins ∧
      (s.setPosition q p t u).pending = s.pending := by
  simp only [State.setPosition]
  (repeat' split) <;> simp

@[simp] theorem State.setLevels_frame (q : Cue) (t : Int) :
    (s.setLevels q t).clock = s.clock ∧ (s.setLevels q t).marks = s.marks ∧ (s.setLevels q t).ports = s.ports ∧
      (s.setLevels q t).outbox = s.outbox ∧ (s.setLevels q t).longestWait = s.longestWait ∧
      (s.setLevels q t).peers = s.peers ∧ (s.setLevels q t).cues = s.cues ∧ (s.setLevels q t).colour = s.colour ∧
      (s.setLevels q t).axes = s.axes ∧ (s.setLevels q t).bridgeNext = s.bridgeNext ∧
      (s.setLevels q t).sense = s.sense ∧ (s.setLevels q t).feed = s.feed ∧ (s.setLevels q t).store = s.store ∧
      (s.setLevels q t).settings = s.settings ∧ (s.setLevels q t).setup = s.setup ∧
      (s.setLevels q t).stats = s.stats ∧ (s.setLevels q t).pins = s.pins ∧
      (s.setLevels q t).pending = s.pending := by
  simp only [State.setLevels]
  (repeat' split) <;> simp

@[simp] theorem State.takeGo_frame (q : Cue) (c : Nat) (t k : Int) (u : Bool) :
    (s.takeGo q c t k u).clock = s.clock ∧ (s.takeGo q c t k u).marks = s.marks ∧
      (s.takeGo q c t k u).peers = s.peers ∧ (s.takeGo q c t k u).cues = s.cues ∧
      (s.takeGo q c t k u).colour = s.colour ∧ (s.takeGo q c t k u).axes = s.axes ∧
      (s.takeGo q c t k u).bridgeNext = s.bridgeNext ∧ (s.takeGo q c t k u).sense = s.sense ∧
      (s.takeGo q c t k u).store = s.store ∧ (s.takeGo q c t k u).settings = s.settings ∧
      (s.takeGo q c t k u).setup = s.setup ∧ (s.takeGo q c t k u).pins = s.pins ∧
      (s.takeGo q c t k u).pending = s.pending := by
  simp only [State.takeGo]
  (repeat' split) <;> simp

@[simp] theorem State.go_frame (c : Nat) (t k : Int) (o : Nat) (u : Bool) :
    (s.go c t k o u).clock = s.clock ∧ (s.go c t k o u).marks = s.marks ∧ (s.go c t k o u).peers = s.peers ∧
      (s.go c t k o u).colour = s.colour ∧ (s.go c t k o u).axes = s.axes ∧
      (s.go c t k o u).bridgeNext = s.bridgeNext ∧ (s.go c t k o u).sense = s.sense ∧
      (s.go c t k o u).store = s.store ∧ (s.go c t k o u).settings = s.settings ∧ (s.go c t k o u).setup = s.setup ∧
      (s.go c t k o u).pins = s.pins ∧ (s.go c t k o u).pending = s.pending := by
  simp only [State.go]
  (repeat' split) <;> simp

@[simp] theorem State.dropPending_frame :
    (s.dropPending).clock = s.clock ∧ (s.dropPending).marks = s.marks ∧ (s.dropPending).ports = s.ports ∧
      (s.dropPending).outbox = s.outbox ∧ (s.dropPending).longestWait = s.longestWait ∧
      (s.dropPending).peers = s.peers ∧ (s.dropPending).cues = s.cues ∧ (s.dropPending).colour = s.colour ∧
      (s.dropPending).axes = s.axes ∧ (s.dropPending).bridgeNext = s.bridgeNext ∧ (s.dropPending).sense = s.sense ∧
      (s.dropPending).feed = s.feed ∧ (s.dropPending).store = s.store ∧ (s.dropPending).settings = s.settings ∧
      (s.dropPending).setup = s.setup ∧ (s.dropPending).pins = s.pins ∧ (s.dropPending).pending = s.pending := by
  simp only [State.dropPending]
  (repeat' split) <;> simp

@[simp] theorem State.syncedGo_frame (c : Nat) (t : Int) (o : Nat) :
    (s.syncedGo c t o).clock = s.clock ∧ (s.syncedGo c t o).marks = s.marks ∧ (s.syncedGo c t o).peers = s.peers ∧
      (s.syncedGo c t o).colour = s.colour ∧ (s.syncedGo c t o).axes = s.axes ∧
      (s.syncedGo c t o).bridgeNext = s.bridgeNext ∧ (s.syncedGo c t o).sense = s.sense ∧
      (s.syncedGo c t o).store = s.store ∧ (s.syncedGo c t o).settings = s.settings ∧
      (s.syncedGo c t o).setup = s.setup ∧ (s.syncedGo c t o).pins = s.pins ∧
      (s.syncedGo c t o).pending = s.pending := by
  simp only [State.syncedGo]
  (repeat' split) <;> simp

@[simp] theorem State.unsyncedGo_frame (c : Nat) (t : Int) (o : Nat) :
    (s.unsyncedGo c t o).clock = s.clock ∧ (s.unsyncedGo c t o).marks = s.marks ∧
      (s.unsyncedGo c t o).peers = s.peers ∧ (s.unsyncedGo c t o).colour = s.colour ∧
      (s.unsyncedGo c t o).axes = s.axes ∧ (s.unsyncedGo c t o).bridgeNext = s.bridgeNext ∧
      (s.unsyncedGo c t o).sense = s.sense ∧ (s.unsyncedGo c t o).store = s.store ∧
      (s.unsyncedGo c t o).settings = s.settings ∧ (s.unsyncedGo c t o).setup = s.setup ∧
      (s.unsyncedGo c t o).pins = s.pins ∧ (s.unsyncedGo c t o).pending = s.pending := by
  simp only [State.unsyncedGo]
  simp

@[simp] theorem State.takeCueGo_frame (f : TickFields) (o : Nat) :
    (s.takeCueGo f o).clock = s.clock ∧ (s.takeCueGo f o).marks = s.marks ∧ (s.takeCueGo f o).peers = s.peers ∧
      (s.takeCueGo f o).colour = s.colour ∧ (s.takeCueGo f o).axes = s.axes ∧
      (s.takeCueGo f o).bridgeNext = s.bridgeNext ∧ (s.takeCueGo f o).sense = s.sense ∧
      (s.takeCueGo f o).store = s.store ∧ (s.takeCueGo f o).settings = s.settings ∧
      (s.takeCueGo f o).setup = s.setup ∧ (s.takeCueGo f o).pins = s.pins ∧
      (s.takeCueGo f o).pending = s.pending := by
  simp only [State.takeCueGo]
  (repeat' split) <;> simp

@[simp] theorem State.takePendingGo_frame (g : PendingGo) :
    (s.takePendingGo g).clock = s.clock ∧ (s.takePendingGo g).marks = s.marks ∧ (s.takePendingGo g).peers = s.peers ∧
      (s.takePendingGo g).colour = s.colour ∧ (s.takePendingGo g).axes = s.axes ∧
      (s.takePendingGo g).bridgeNext = s.bridgeNext ∧ (s.takePendingGo g).sense = s.sense ∧
      (s.takePendingGo g).store = s.store ∧ (s.takePendingGo g).settings = s.settings ∧
      (s.takePendingGo g).setup = s.setup ∧ (s.takePendingGo g).pins = s.pins ∧
      (s.takePendingGo g).pending = s.pending := by
  simp only [State.takePendingGo]
  simp

@[simp] theorem State.takeFollow_frame (f : FollowTimer) :
    (s.takeFollow f).clock = s.clock ∧ (s.takeFollow f).marks = s.marks ∧ (s.takeFollow f).peers = s.peers ∧
      (s.takeFollow f).colour = s.colour ∧ (s.takeFollow f).axes = s.axes ∧
      (s.takeFollow f).bridgeNext = s.bridgeNext ∧ (s.takeFollow f).sense = s.sense ∧
      (s.takeFollow f).store = s.store ∧ (s.takeFollow f).settings = s.settings ∧ (s.takeFollow f).setup = s.setup ∧
      (s.takeFollow f).pins = s.pins ∧ (s.takeFollow f).pending = s.pending := by
  simp only [State.takeFollow]
  (repeat' split) <;> simp

@[simp] theorem State.darkBoundary_frame (b : Int) :
    (s.darkBoundary b).clock = s.clock ∧ (s.darkBoundary b).ports = s.ports ∧ (s.darkBoundary b).outbox = s.outbox ∧
      (s.darkBoundary b).longestWait = s.longestWait ∧ (s.darkBoundary b).peers = s.peers ∧
      (s.darkBoundary b).cues = s.cues ∧ (s.darkBoundary b).colour = s.colour ∧ (s.darkBoundary b).axes = s.axes ∧
      (s.darkBoundary b).bridgeNext = s.bridgeNext ∧ (s.darkBoundary b).sense = s.sense ∧
      (s.darkBoundary b).feed = s.feed ∧ (s.darkBoundary b).store = s.store ∧
      (s.darkBoundary b).settings = s.settings ∧ (s.darkBoundary b).setup = s.setup ∧
      (s.darkBoundary b).pins = s.pins ∧ (s.darkBoundary b).pending = s.pending := by
  simp only [State.darkBoundary]
  (repeat' split) <;> simp

@[simp] theorem State.releaseLanes_frame (t : Int) (m : Nat) :
    (s.releaseLanes t m).clock = s.clock ∧ (s.releaseLanes t m).marks = s.marks ∧
      (s.releaseLanes t m).ports = s.ports ∧ (s.releaseLanes t m).outbox = s.outbox ∧
      (s.releaseLanes t m).longestWait = s.longestWait ∧ (s.releaseLanes t m).peers = s.peers ∧
      (s.releaseLanes t m).cues = s.cues ∧ (s.releaseLanes t m).colour = s.colour ∧
      (s.releaseLanes t m).axes = s.axes ∧ (s.releaseLanes t m).bridgeNext = s.bridgeNext ∧
      (s.releaseLanes t m).sense = s.sense ∧ (s.releaseLanes t m).feed = s.feed ∧
      (s.releaseLanes t m).store = s.store ∧ (s.releaseLanes t m).settings = s.settings ∧
      (s.releaseLanes t m).setup = s.setup ∧ (s.releaseLanes t m).stats = s.stats ∧
      (s.releaseLanes t m).pins = s.pins ∧ (s.releaseLanes t m).pending = s.pending := by
  simp only [State.releaseLanes]
  simp

@[simp] theorem State.takeRelease_frame (m : Nat) (c e : Int) :
    (s.takeRelease m c e).clock = s.clock ∧ (s.takeRelease m c e).marks = s.marks ∧
      (s.takeRelease m c e).ports = s.ports ∧ (s.takeRelease m c e).outbox = s.outbox ∧
      (s.takeRelease m c e).longestWait = s.longestWait ∧ (s.takeRelease m c e).peers = s.peers ∧
      (s.takeRelease m c e).cues = s.cues ∧ (s.takeRelease m c e).colour = s.colour ∧
      (s.takeRelease m c e).axes = s.axes ∧ (s.takeRelease m c e).bridgeNext = s.bridgeNext ∧
      (s.takeRelease m c e).sense = s.sense ∧ (s.takeRelease m c e).feed = s.feed ∧
      (s.takeRelease m c e).store = s.store ∧ (s.takeRelease m c e).settings = s.settings ∧
      (s.takeRelease m c e).setup = s.setup ∧ (s.takeRelease m c e).pins = s.pins ∧
      (s.takeRelease m c e).pending = s.pending := by
  simp only [State.takeRelease]
  simp

@[simp] theorem State.takeCueRelease_frame (f : TickFields) :
    (s.takeCueRelease f).clock = s.clock ∧ (s.takeCueRelease f).marks = s.marks ∧
      (s.takeCueRelease f).ports = s.ports ∧ (s.takeCueRelease f).outbox = s.outbox ∧
      (s.takeCueRelease f).longestWait = s.longestWait ∧ (s.takeCueRelease f).peers = s.peers ∧
      (s.takeCueRelease f).cues = s.cues ∧ (s.takeCueRelease f).colour = s.colour ∧
      (s.takeCueRelease f).axes = s.axes ∧ (s.takeCueRelease f).bridgeNext = s.bridgeNext ∧
      (s.takeCueRelease f).sense = s.sense ∧ (s.takeCueRelease f).feed = s.feed ∧
      (s.takeCueRelease f).store = s.store ∧ (s.takeCueRelease f).settings = s.settings ∧
      (s.takeCueRelease f).setup = s.setup ∧ (s.takeCueRelease f).pins = s.pins ∧
      (s.takeCueRelease f).pending = s.pending := by
  simp only [State.takeCueRelease]
  (repeat' split) <;> simp

@[simp] theorem State.rebase_frame (d : Int) :
    (s.rebase d).clock = s.clock ∧ (s.rebase d).ports = s.ports ∧ (s.rebase d).outbox = s.outbox ∧
      (s.rebase d).longestWait = s.longestWait ∧ (s.rebase d).peers = s.peers ∧ (s.rebase d).cues = s.cues ∧
      (s.rebase d).colour = s.colour ∧ (s.rebase d).axes = s.axes ∧ (s.rebase d).bridgeNext = s.bridgeNext ∧
      (s.rebase d).sense = s.sense ∧ (s.rebase d).feed = s.feed ∧ (s.rebase d).store = s.store ∧
      (s.rebase d).settings = s.settings ∧ (s.rebase d).setup = s.setup ∧ (s.rebase d).pins = s.pins ∧
      (s.rebase d).pending = s.pending := by
  simp only [State.rebase]
  (repeat' split) <;> simp

/-! ### The Colour Renderer -/

@[simp] theorem State.douse_frame :
    (s.douse).clock = s.clock ∧ (s.douse).marks = s.marks ∧ (s.douse).ports = s.ports ∧ (s.douse).outbox = s.outbox ∧
      (s.douse).longestWait = s.longestWait ∧ (s.douse).peers = s.peers ∧ (s.douse).cues = s.cues ∧
      (s.douse).play = s.play ∧ (s.douse).axes = s.axes ∧ (s.douse).bridgeNext = s.bridgeNext ∧
      (s.douse).sense = s.sense ∧ (s.douse).feed = s.feed ∧ (s.douse).store = s.store ∧
      (s.douse).settings = s.settings ∧ (s.douse).setup = s.setup ∧ (s.douse).stats = s.stats ∧
      (s.douse).pins = s.pins ∧ (s.douse).pending = s.pending := by
  simp only [State.douse]
  simp

@[simp] theorem State.sendMatchNote_frame (owed : Bool) :
    (s.sendMatchNote owed).clock = s.clock ∧ (s.sendMatchNote owed).marks = s.marks ∧
      (s.sendMatchNote owed).peers = s.peers ∧ (s.sendMatchNote owed).cues = s.cues ∧
      (s.sendMatchNote owed).play = s.play ∧ (s.sendMatchNote owed).axes = s.axes ∧
      (s.sendMatchNote owed).bridgeNext = s.bridgeNext ∧ (s.sendMatchNote owed).sense = s.sense ∧
      (s.sendMatchNote owed).store = s.store ∧ (s.sendMatchNote owed).settings = s.settings ∧
      (s.sendMatchNote owed).setup = s.setup ∧ (s.sendMatchNote owed).pins = s.pins ∧
      (s.sendMatchNote owed).pending = s.pending := by
  simp only [State.sendMatchNote]
  simp

@[simp] theorem State.placeMatchNote_frame :
    (s.placeMatchNote).clock = s.clock ∧ (s.placeMatchNote).marks = s.marks ∧ (s.placeMatchNote).peers = s.peers ∧
      (s.placeMatchNote).cues = s.cues ∧ (s.placeMatchNote).play = s.play ∧ (s.placeMatchNote).axes = s.axes ∧
      (s.placeMatchNote).bridgeNext = s.bridgeNext ∧ (s.placeMatchNote).sense = s.sense ∧
      (s.placeMatchNote).store = s.store ∧ (s.placeMatchNote).settings = s.settings ∧
      (s.placeMatchNote).setup = s.setup ∧ (s.placeMatchNote).pins = s.pins ∧
      (s.placeMatchNote).pending = s.pending := by
  simp only [State.placeMatchNote]
  simp

@[simp] theorem State.colourBoundary_frame (b : Int) :
    (s.colourBoundary b).clock = s.clock ∧ (s.colourBoundary b).peers = s.peers ∧
      (s.colourBoundary b).cues = s.cues ∧ (s.colourBoundary b).play = s.play ∧ (s.colourBoundary b).axes = s.axes ∧
      (s.colourBoundary b).bridgeNext = s.bridgeNext ∧ (s.colourBoundary b).sense = s.sense ∧
      (s.colourBoundary b).store = s.store ∧ (s.colourBoundary b).settings = s.settings ∧
      (s.colourBoundary b).setup = s.setup ∧ (s.colourBoundary b).pins = s.pins ∧
      (s.colourBoundary b).pending = s.pending := by
  simp only [State.colourBoundary]
  (repeat' split) <;> simp

@[simp] theorem State.emitterPeriod_frame :
    (s.emitterPeriod).clock = s.clock ∧ (s.emitterPeriod).marks = s.marks ∧ (s.emitterPeriod).ports = s.ports ∧
      (s.emitterPeriod).outbox = s.outbox ∧ (s.emitterPeriod).longestWait = s.longestWait ∧
      (s.emitterPeriod).peers = s.peers ∧ (s.emitterPeriod).cues = s.cues ∧ (s.emitterPeriod).play = s.play ∧
      (s.emitterPeriod).axes = s.axes ∧ (s.emitterPeriod).bridgeNext = s.bridgeNext ∧
      (s.emitterPeriod).sense = s.sense ∧ (s.emitterPeriod).feed = s.feed ∧ (s.emitterPeriod).store = s.store ∧
      (s.emitterPeriod).settings = s.settings ∧ (s.emitterPeriod).setup = s.setup ∧
      (s.emitterPeriod).stats = s.stats ∧ (s.emitterPeriod).pins = s.pins ∧
      (s.emitterPeriod).pending = s.pending := by
  simp only [State.emitterPeriod]
  simp

/-! ### The axis drivers -/

@[simp] theorem State.axisBoundary_frame (x : Axis) (b : Int) :
    (s.axisBoundary x b).clock = s.clock ∧ (s.axisBoundary x b).ports = s.ports ∧
      (s.axisBoundary x b).outbox = s.outbox ∧ (s.axisBoundary x b).longestWait = s.longestWait ∧
      (s.axisBoundary x b).peers = s.peers ∧ (s.axisBoundary x b).cues = s.cues ∧
      (s.axisBoundary x b).play = s.play ∧ (s.axisBoundary x b).bridgeNext = s.bridgeNext ∧
      (s.axisBoundary x b).sense = s.sense ∧ (s.axisBoundary x b).feed = s.feed ∧
      (s.axisBoundary x b).store = s.store ∧ (s.axisBoundary x b).settings = s.settings ∧
      (s.axisBoundary x b).setup = s.setup ∧ (s.axisBoundary x b).pins = s.pins ∧
      (s.axisBoundary x b).pending = s.pending := by
  simp only [State.axisBoundary]
  (repeat' split) <;> simp

@[simp] theorem State.beginHoming_frame (x : Axis) :
    (s.beginHoming x).clock = s.clock ∧ (s.beginHoming x).marks = s.marks ∧ (s.beginHoming x).ports = s.ports ∧
      (s.beginHoming x).outbox = s.outbox ∧ (s.beginHoming x).longestWait = s.longestWait ∧
      (s.beginHoming x).peers = s.peers ∧ (s.beginHoming x).cues = s.cues ∧ (s.beginHoming x).play = s.play ∧
      (s.beginHoming x).bridgeNext = s.bridgeNext ∧ (s.beginHoming x).sense = s.sense ∧
      (s.beginHoming x).feed = s.feed ∧ (s.beginHoming x).store = s.store ∧ (s.beginHoming x).settings = s.settings ∧
      (s.beginHoming x).setup = s.setup ∧ (s.beginHoming x).pins = s.pins ∧
      (s.beginHoming x).pending = s.pending := by
  simp only [State.beginHoming]
  simp

@[simp] theorem State.overcurrent_frame (x : Axis) :
    (s.overcurrent x).clock = s.clock ∧ (s.overcurrent x).marks = s.marks ∧ (s.overcurrent x).ports = s.ports ∧
      (s.overcurrent x).outbox = s.outbox ∧ (s.overcurrent x).longestWait = s.longestWait ∧
      (s.overcurrent x).peers = s.peers ∧ (s.overcurrent x).cues = s.cues ∧ (s.overcurrent x).play = s.play ∧
      (s.overcurrent x).colour = s.colour ∧ (s.overcurrent x).bridgeNext = s.bridgeNext ∧
      (s.overcurrent x).sense = s.sense ∧ (s.overcurrent x).feed = s.feed ∧ (s.overcurrent x).store = s.store ∧
      (s.overcurrent x).settings = s.settings ∧ (s.overcurrent x).setup = s.setup ∧ (s.overcurrent x).pins = s.pins ∧
      (s.overcurrent x).pending = s.pending := by
  simp only [State.overcurrent]
  (repeat' split) <;> simp

@[simp] theorem State.bridgePeriod_frame :
    (s.bridgePeriod).clock = s.clock ∧ (s.bridgePeriod).marks = s.marks ∧ (s.bridgePeriod).ports = s.ports ∧
      (s.bridgePeriod).outbox = s.outbox ∧ (s.bridgePeriod).longestWait = s.longestWait ∧
      (s.bridgePeriod).peers = s.peers ∧ (s.bridgePeriod).cues = s.cues ∧ (s.bridgePeriod).play = s.play ∧
      (s.bridgePeriod).colour = s.colour ∧ (s.bridgePeriod).sense = s.sense ∧ (s.bridgePeriod).feed = s.feed ∧
      (s.bridgePeriod).store = s.store ∧ (s.bridgePeriod).settings = s.settings ∧ (s.bridgePeriod).setup = s.setup ∧
      (s.bridgePeriod).stats = s.stats ∧ (s.bridgePeriod).pins = s.pins ∧ (s.bridgePeriod).pending = s.pending := by
  simp only [State.bridgePeriod]
  simp

/-! ### The Feed Share Unit -/

@[simp] theorem State.resplit_frame :
    (s.resplit).clock = s.clock ∧ (s.resplit).marks = s.marks ∧ (s.resplit).ports = s.ports ∧
      (s.resplit).outbox = s.outbox ∧ (s.resplit).longestWait = s.longestWait ∧ (s.resplit).peers = s.peers ∧
      (s.resplit).cues = s.cues ∧ (s.resplit).play = s.play ∧ (s.resplit).colour = s.colour ∧
      (s.resplit).axes = s.axes ∧ (s.resplit).bridgeNext = s.bridgeNext ∧ (s.resplit).sense = s.sense ∧
      (s.resplit).store = s.store ∧ (s.resplit).settings = s.settings ∧ (s.resplit).setup = s.setup ∧
      (s.resplit).stats = s.stats ∧ (s.resplit).pins = s.pins ∧ (s.resplit).pending = s.pending := by
  simp only [State.resplit]
  simp

@[simp] theorem State.sendFeedNote_frame (owed : Bool) :
    (s.sendFeedNote owed).clock = s.clock ∧ (s.sendFeedNote owed).marks = s.marks ∧
      (s.sendFeedNote owed).peers = s.peers ∧ (s.sendFeedNote owed).cues = s.cues ∧
      (s.sendFeedNote owed).play = s.play ∧ (s.sendFeedNote owed).colour = s.colour ∧
      (s.sendFeedNote owed).axes = s.axes ∧ (s.sendFeedNote owed).bridgeNext = s.bridgeNext ∧
      (s.sendFeedNote owed).sense = s.sense ∧ (s.sendFeedNote owed).store = s.store ∧
      (s.sendFeedNote owed).settings = s.settings ∧ (s.sendFeedNote owed).setup = s.setup ∧
      (s.sendFeedNote owed).pins = s.pins ∧ (s.sendFeedNote owed).pending = s.pending := by
  simp only [State.sendFeedNote]
  (repeat' split) <;> simp

@[simp] theorem State.placeFeedNote_frame :
    (s.placeFeedNote).clock = s.clock ∧ (s.placeFeedNote).marks = s.marks ∧ (s.placeFeedNote).peers = s.peers ∧
      (s.placeFeedNote).cues = s.cues ∧ (s.placeFeedNote).play = s.play ∧ (s.placeFeedNote).colour = s.colour ∧
      (s.placeFeedNote).axes = s.axes ∧ (s.placeFeedNote).bridgeNext = s.bridgeNext ∧
      (s.placeFeedNote).sense = s.sense ∧ (s.placeFeedNote).store = s.store ∧
      (s.placeFeedNote).settings = s.settings ∧ (s.placeFeedNote).setup = s.setup ∧ (s.placeFeedNote).pins = s.pins ∧
      (s.placeFeedNote).pending = s.pending := by
  simp only [State.placeFeedNote]
  simp

@[simp] theorem State.lowerClaim_frame :
    (s.lowerClaim).clock = s.clock ∧ (s.lowerClaim).marks = s.marks ∧ (s.lowerClaim).peers = s.peers ∧
      (s.lowerClaim).cues = s.cues ∧ (s.lowerClaim).play = s.play ∧ (s.lowerClaim).colour = s.colour ∧
      (s.lowerClaim).axes = s.axes ∧ (s.lowerClaim).bridgeNext = s.bridgeNext ∧ (s.lowerClaim).sense = s.sense ∧
      (s.lowerClaim).store = s.store ∧ (s.lowerClaim).settings = s.settings ∧ (s.lowerClaim).setup = s.setup ∧
      (s.lowerClaim).pins = s.pins ∧ (s.lowerClaim).pending = s.pending := by
  simp only [State.lowerClaim]
  (repeat' split) <;> simp

@[simp] theorem State.raiseClaim_frame :
    (s.raiseClaim).clock = s.clock ∧ (s.raiseClaim).marks = s.marks ∧ (s.raiseClaim).peers = s.peers ∧
      (s.raiseClaim).cues = s.cues ∧ (s.raiseClaim).play = s.play ∧ (s.raiseClaim).colour = s.colour ∧
      (s.raiseClaim).axes = s.axes ∧ (s.raiseClaim).bridgeNext = s.bridgeNext ∧ (s.raiseClaim).sense = s.sense ∧
      (s.raiseClaim).store = s.store ∧ (s.raiseClaim).settings = s.settings ∧ (s.raiseClaim).setup = s.setup ∧
      (s.raiseClaim).pins = s.pins ∧ (s.raiseClaim).pending = s.pending := by
  simp only [State.raiseClaim]
  (repeat' split) <;> simp

@[simp] theorem State.feedBoundary_frame :
    (s.feedBoundary).clock = s.clock ∧ (s.feedBoundary).peers = s.peers ∧ (s.feedBoundary).cues = s.cues ∧
      (s.feedBoundary).play = s.play ∧ (s.feedBoundary).colour = s.colour ∧ (s.feedBoundary).axes = s.axes ∧
      (s.feedBoundary).bridgeNext = s.bridgeNext ∧ (s.feedBoundary).sense = s.sense ∧
      (s.feedBoundary).store = s.store ∧ (s.feedBoundary).settings = s.settings ∧ (s.feedBoundary).setup = s.setup ∧
      (s.feedBoundary).pins = s.pins ∧ (s.feedBoundary).pending = s.pending := by
  simp only [State.feedBoundary]
  (repeat' split) <;> simp

@[simp] theorem State.settle_frame :
    (s.settle).clock = s.clock ∧ (s.settle).marks = s.marks ∧ (s.settle).peers = s.peers ∧ (s.settle).cues = s.cues ∧
      (s.settle).play = s.play ∧ (s.settle).colour = s.colour ∧ (s.settle).axes = s.axes ∧
      (s.settle).bridgeNext = s.bridgeNext ∧ (s.settle).sense = s.sense ∧ (s.settle).store = s.store ∧
      (s.settle).settings = s.settings ∧ (s.settle).setup = s.setup ∧ (s.settle).pins = s.pins ∧
      (s.settle).pending = s.pending := by
  simp only [State.settle]
  (repeat' split) <;> simp

@[simp] theorem State.tripFeed_frame :
    (s.tripFeed).clock = s.clock ∧ (s.tripFeed).marks = s.marks ∧ (s.tripFeed).peers = s.peers ∧
      (s.tripFeed).cues = s.cues ∧ (s.tripFeed).play = s.play ∧ (s.tripFeed).axes = s.axes ∧
      (s.tripFeed).bridgeNext = s.bridgeNext ∧ (s.tripFeed).sense = s.sense ∧ (s.tripFeed).store = s.store ∧
      (s.tripFeed).settings = s.settings ∧ (s.tripFeed).setup = s.setup ∧ (s.tripFeed).pins = s.pins ∧
      (s.tripFeed).pending = s.pending := by
  simp only [State.tripFeed]
  simp

@[simp] theorem State.overcurrentReport_frame :
    (s.overcurrentReport).clock = s.clock ∧ (s.overcurrentReport).marks = s.marks ∧
      (s.overcurrentReport).peers = s.peers ∧ (s.overcurrentReport).cues = s.cues ∧
      (s.overcurrentReport).play = s.play ∧ (s.overcurrentReport).axes = s.axes ∧
      (s.overcurrentReport).bridgeNext = s.bridgeNext ∧ (s.overcurrentReport).sense = s.sense ∧
      (s.overcurrentReport).store = s.store ∧ (s.overcurrentReport).settings = s.settings ∧
      (s.overcurrentReport).setup = s.setup ∧ (s.overcurrentReport).pins = s.pins ∧
      (s.overcurrentReport).pending = s.pending := by
  simp only [State.overcurrentReport]
  (repeat' split) <;> simp

@[simp] theorem State.endTrip_frame :
    (s.endTrip).clock = s.clock ∧ (s.endTrip).marks = s.marks ∧ (s.endTrip).peers = s.peers ∧
      (s.endTrip).cues = s.cues ∧ (s.endTrip).play = s.play ∧ (s.endTrip).colour = s.colour ∧
      (s.endTrip).axes = s.axes ∧ (s.endTrip).bridgeNext = s.bridgeNext ∧ (s.endTrip).sense = s.sense ∧
      (s.endTrip).store = s.store ∧ (s.endTrip).settings = s.settings ∧ (s.endTrip).setup = s.setup ∧
      (s.endTrip).pins = s.pins ∧ (s.endTrip).pending = s.pending := by
  simp only [State.endTrip]
  simp

@[simp] theorem State.startFeed_frame :
    (s.startFeed).clock = s.clock ∧ (s.startFeed).marks = s.marks ∧ (s.startFeed).peers = s.peers ∧
      (s.startFeed).cues = s.cues ∧ (s.startFeed).play = s.play ∧ (s.startFeed).colour = s.colour ∧
      (s.startFeed).axes = s.axes ∧ (s.startFeed).bridgeNext = s.bridgeNext ∧ (s.startFeed).sense = s.sense ∧
      (s.startFeed).store = s.store ∧ (s.startFeed).settings = s.settings ∧ (s.startFeed).setup = s.setup ∧
      (s.startFeed).pins = s.pins ∧ (s.startFeed).pending = s.pending := by
  simp only [State.startFeed]
  (repeat' split) <;> simp

@[simp] theorem State.enableAxis_frame (x : Axis) :
    (s.enableAxis x).clock = s.clock ∧ (s.enableAxis x).marks = s.marks ∧ (s.enableAxis x).ports = s.ports ∧
      (s.enableAxis x).outbox = s.outbox ∧ (s.enableAxis x).longestWait = s.longestWait ∧
      (s.enableAxis x).peers = s.peers ∧ (s.enableAxis x).cues = s.cues ∧ (s.enableAxis x).play = s.play ∧
      (s.enableAxis x).colour = s.colour ∧ (s.enableAxis x).bridgeNext = s.bridgeNext ∧
      (s.enableAxis x).sense = s.sense ∧ (s.enableAxis x).feed = s.feed ∧ (s.enableAxis x).store = s.store ∧
      (s.enableAxis x).settings = s.settings ∧ (s.enableAxis x).setup = s.setup ∧ (s.enableAxis x).stats = s.stats ∧
      (s.enableAxis x).pins = s.pins ∧ (s.enableAxis x).pending = s.pending := by
  simp only [State.enableAxis]
  simp

@[simp] theorem State.homeOnEnable_frame (x : Axis) :
    (s.homeOnEnable x).clock = s.clock ∧ (s.homeOnEnable x).marks = s.marks ∧ (s.homeOnEnable x).ports = s.ports ∧
      (s.homeOnEnable x).outbox = s.outbox ∧ (s.homeOnEnable x).longestWait = s.longestWait ∧
      (s.homeOnEnable x).peers = s.peers ∧ (s.homeOnEnable x).cues = s.cues ∧ (s.homeOnEnable x).play = s.play ∧
      (s.homeOnEnable x).bridgeNext = s.bridgeNext ∧ (s.homeOnEnable x).sense = s.sense ∧
      (s.homeOnEnable x).feed = s.feed ∧ (s.homeOnEnable x).store = s.store ∧
      (s.homeOnEnable x).settings = s.settings ∧ (s.homeOnEnable x).setup = s.setup ∧
      (s.homeOnEnable x).pins = s.pins ∧ (s.homeOnEnable x).pending = s.pending := by
  simp only [State.homeOnEnable]
  (repeat' split) <;> simp

@[simp] theorem State.enableBridges_frame :
    (s.enableBridges).clock = s.clock ∧ (s.enableBridges).marks = s.marks ∧ (s.enableBridges).ports = s.ports ∧
      (s.enableBridges).outbox = s.outbox ∧ (s.enableBridges).longestWait = s.longestWait ∧
      (s.enableBridges).peers = s.peers ∧ (s.enableBridges).cues = s.cues ∧ (s.enableBridges).play = s.play ∧
      (s.enableBridges).bridgeNext = s.bridgeNext ∧ (s.enableBridges).sense = s.sense ∧
      (s.enableBridges).store = s.store ∧ (s.enableBridges).settings = s.settings ∧
      (s.enableBridges).setup = s.setup ∧ (s.enableBridges).pins = s.pins ∧
      (s.enableBridges).pending = s.pending := by
  simp only [State.enableBridges]
  simp

/-! ### Sensing and homing -/

@[simp] theorem State.scan_frame (a b c : BitVec 12) :
    (s.scan a b c).clock = s.clock ∧ (s.scan a b c).marks = s.marks ∧ (s.scan a b c).peers = s.peers ∧
      (s.scan a b c).cues = s.cues ∧ (s.scan a b c).play = s.play ∧ (s.scan a b c).axes = s.axes ∧
      (s.scan a b c).bridgeNext = s.bridgeNext ∧ (s.scan a b c).store = s.store ∧
      (s.scan a b c).settings = s.settings ∧ (s.scan a b c).setup = s.setup ∧ (s.scan a b c).pending = s.pending := by
  simp only [State.scan]
  (repeat' split) <;> simp

@[simp] theorem State.indexEdge_frame (x : Axis) (e : Edge) :
    (s.indexEdge x e).clock = s.clock ∧ (s.indexEdge x e).marks = s.marks ∧ (s.indexEdge x e).ports = s.ports ∧
      (s.indexEdge x e).outbox = s.outbox ∧ (s.indexEdge x e).longestWait = s.longestWait ∧
      (s.indexEdge x e).peers = s.peers ∧ (s.indexEdge x e).cues = s.cues ∧ (s.indexEdge x e).play = s.play ∧
      (s.indexEdge x e).colour = s.colour ∧ (s.indexEdge x e).bridgeNext = s.bridgeNext ∧
      (s.indexEdge x e).sense = s.sense ∧ (s.indexEdge x e).feed = s.feed ∧ (s.indexEdge x e).store = s.store ∧
      (s.indexEdge x e).settings = s.settings ∧ (s.indexEdge x e).setup = s.setup ∧
      (s.indexEdge x e).pending = s.pending := by
  simp only [State.indexEdge]
  (repeat' split) <;> simp

@[simp] theorem State.askAxis_frame (x : Axis) :
    (s.askAxis x).clock = s.clock ∧ (s.askAxis x).marks = s.marks ∧ (s.askAxis x).ports = s.ports ∧
      (s.askAxis x).outbox = s.outbox ∧ (s.askAxis x).longestWait = s.longestWait ∧ (s.askAxis x).peers = s.peers ∧
      (s.askAxis x).cues = s.cues ∧ (s.askAxis x).play = s.play ∧ (s.askAxis x).bridgeNext = s.bridgeNext ∧
      (s.askAxis x).sense = s.sense ∧ (s.askAxis x).feed = s.feed ∧ (s.askAxis x).store = s.store ∧
      (s.askAxis x).settings = s.settings ∧ (s.askAxis x).setup = s.setup ∧ (s.askAxis x).pins = s.pins ∧
      (s.askAxis x).pending = s.pending := by
  simp only [State.askAxis]
  (repeat' split) <;> simp

@[simp] theorem State.takeHomeAsk_frame (p : List Byte) :
    (s.takeHomeAsk p).clock = s.clock ∧ (s.takeHomeAsk p).marks = s.marks ∧ (s.takeHomeAsk p).ports = s.ports ∧
      (s.takeHomeAsk p).outbox = s.outbox ∧ (s.takeHomeAsk p).longestWait = s.longestWait ∧
      (s.takeHomeAsk p).peers = s.peers ∧ (s.takeHomeAsk p).cues = s.cues ∧ (s.takeHomeAsk p).play = s.play ∧
      (s.takeHomeAsk p).bridgeNext = s.bridgeNext ∧ (s.takeHomeAsk p).sense = s.sense ∧
      (s.takeHomeAsk p).feed = s.feed ∧ (s.takeHomeAsk p).store = s.store ∧ (s.takeHomeAsk p).settings = s.settings ∧
      (s.takeHomeAsk p).setup = s.setup ∧ (s.takeHomeAsk p).pins = s.pins ∧
      (s.takeHomeAsk p).pending = s.pending := by
  simp only [State.takeHomeAsk]
  (repeat' split) <;> simp

/-! ### The Peer Table -/

@[simp] theorem State.takePeer_frame (f : Frame) (a : PeerRecord → PeerRecord) :
    (s.takePeer f a).clock = s.clock ∧ (s.takePeer f a).marks = s.marks ∧ (s.takePeer f a).ports = s.ports ∧
      (s.takePeer f a).outbox = s.outbox ∧ (s.takePeer f a).longestWait = s.longestWait ∧
      (s.takePeer f a).cues = s.cues ∧ (s.takePeer f a).play = s.play ∧ (s.takePeer f a).colour = s.colour ∧
      (s.takePeer f a).axes = s.axes ∧ (s.takePeer f a).bridgeNext = s.bridgeNext ∧
      (s.takePeer f a).sense = s.sense ∧ (s.takePeer f a).feed = s.feed ∧ (s.takePeer f a).store = s.store ∧
      (s.takePeer f a).settings = s.settings ∧ (s.takePeer f a).setup = s.setup ∧ (s.takePeer f a).pins = s.pins ∧
      (s.takePeer f a).pending = s.pending := by
  simp only [State.takePeer]
  (repeat' split) <;> simp

@[simp] theorem State.ageOut_frame (r : PeerRecord) :
    (s.ageOut r).clock = s.clock ∧ (s.ageOut r).marks = s.marks ∧ (s.ageOut r).ports = s.ports ∧
      (s.ageOut r).outbox = s.outbox ∧ (s.ageOut r).longestWait = s.longestWait ∧ (s.ageOut r).cues = s.cues ∧
      (s.ageOut r).play = s.play ∧ (s.ageOut r).colour = s.colour ∧ (s.ageOut r).axes = s.axes ∧
      (s.ageOut r).bridgeNext = s.bridgeNext ∧ (s.ageOut r).sense = s.sense ∧ (s.ageOut r).feed = s.feed ∧
      (s.ageOut r).store = s.store ∧ (s.ageOut r).settings = s.settings ∧ (s.ageOut r).setup = s.setup ∧
      (s.ageOut r).pins = s.pins ∧ (s.ageOut r).pending = s.pending := by
  simp only [State.ageOut]
  simp

@[simp] theorem State.lapseFeed_frame (r : PeerRecord) :
    (s.lapseFeed r).clock = s.clock ∧ (s.lapseFeed r).marks = s.marks ∧ (s.lapseFeed r).ports = s.ports ∧
      (s.lapseFeed r).outbox = s.outbox ∧ (s.lapseFeed r).longestWait = s.longestWait ∧
      (s.lapseFeed r).cues = s.cues ∧ (s.lapseFeed r).play = s.play ∧ (s.lapseFeed r).colour = s.colour ∧
      (s.lapseFeed r).axes = s.axes ∧ (s.lapseFeed r).bridgeNext = s.bridgeNext ∧ (s.lapseFeed r).sense = s.sense ∧
      (s.lapseFeed r).feed = s.feed ∧ (s.lapseFeed r).store = s.store ∧ (s.lapseFeed r).settings = s.settings ∧
      (s.lapseFeed r).setup = s.setup ∧ (s.lapseFeed r).stats = s.stats ∧ (s.lapseFeed r).pins = s.pins ∧
      (s.lapseFeed r).pending = s.pending := by
  simp only [State.lapseFeed]
  simp

@[simp] theorem State.lapseMatch_frame (r : PeerRecord) :
    (s.lapseMatch r).clock = s.clock ∧ (s.lapseMatch r).marks = s.marks ∧ (s.lapseMatch r).ports = s.ports ∧
      (s.lapseMatch r).outbox = s.outbox ∧ (s.lapseMatch r).longestWait = s.longestWait ∧
      (s.lapseMatch r).cues = s.cues ∧ (s.lapseMatch r).play = s.play ∧ (s.lapseMatch r).colour = s.colour ∧
      (s.lapseMatch r).axes = s.axes ∧ (s.lapseMatch r).bridgeNext = s.bridgeNext ∧
      (s.lapseMatch r).sense = s.sense ∧ (s.lapseMatch r).feed = s.feed ∧ (s.lapseMatch r).store = s.store ∧
      (s.lapseMatch r).settings = s.settings ∧ (s.lapseMatch r).setup = s.setup ∧ (s.lapseMatch r).stats = s.stats ∧
      (s.lapseMatch r).pins = s.pins ∧ (s.lapseMatch r).pending = s.pending := by
  simp only [State.lapseMatch]
  simp

/-! ### The Show Clock -/

@[simp] theorem State.runMicro_frame :
    (s.runMicro).ports = s.ports ∧ (s.runMicro).outbox = s.outbox ∧ (s.runMicro).longestWait = s.longestWait ∧
      (s.runMicro).peers = s.peers ∧ (s.runMicro).cues = s.cues ∧ (s.runMicro).play = s.play ∧
      (s.runMicro).colour = s.colour ∧ (s.runMicro).axes = s.axes ∧ (s.runMicro).bridgeNext = s.bridgeNext ∧
      (s.runMicro).sense = s.sense ∧ (s.runMicro).feed = s.feed ∧ (s.runMicro).store = s.store ∧
      (s.runMicro).settings = s.settings ∧ (s.runMicro).setup = s.setup ∧ (s.runMicro).stats = s.stats ∧
      (s.runMicro).pins = s.pins ∧ (s.runMicro).pending = s.pending := by
  simp only [State.runMicro]
  (repeat' split) <;> simp

@[simp] theorem State.passTime_frame :
    (s.passTime).ports = s.ports ∧ (s.passTime).outbox = s.outbox ∧ (s.passTime).longestWait = s.longestWait ∧
      (s.passTime).peers = s.peers ∧ (s.passTime).cues = s.cues ∧ (s.passTime).play = s.play ∧
      (s.passTime).colour = s.colour ∧ (s.passTime).axes = s.axes ∧ (s.passTime).bridgeNext = s.bridgeNext ∧
      (s.passTime).sense = s.sense ∧ (s.passTime).feed = s.feed ∧ (s.passTime).store = s.store ∧
      (s.passTime).settings = s.settings ∧ (s.passTime).setup = s.setup ∧ (s.passTime).stats = s.stats ∧
      (s.passTime).pins = s.pins ∧ (s.passTime).pending = s.pending := by
  simp only [State.passTime]
  (repeat' split) <;> simp

@[simp] theorem State.stepClock_frame (o : Int) :
    (s.stepClock o).marks = s.marks ∧ (s.stepClock o).ports = s.ports ∧ (s.stepClock o).outbox = s.outbox ∧
      (s.stepClock o).longestWait = s.longestWait ∧ (s.stepClock o).peers = s.peers ∧ (s.stepClock o).cues = s.cues ∧
      (s.stepClock o).play = s.play ∧ (s.stepClock o).colour = s.colour ∧ (s.stepClock o).axes = s.axes ∧
      (s.stepClock o).bridgeNext = s.bridgeNext ∧ (s.stepClock o).sense = s.sense ∧ (s.stepClock o).feed = s.feed ∧
      (s.stepClock o).store = s.store ∧ (s.stepClock o).settings = s.settings ∧ (s.stepClock o).setup = s.setup ∧
      (s.stepClock o).pins = s.pins ∧ (s.stepClock o).pending = s.pending := by
  simp only [State.stepClock]
  simp

@[simp] theorem State.seekAnew_frame :
    (s.seekAnew).marks = s.marks ∧ (s.seekAnew).ports = s.ports ∧ (s.seekAnew).outbox = s.outbox ∧
      (s.seekAnew).longestWait = s.longestWait ∧ (s.seekAnew).peers = s.peers ∧ (s.seekAnew).cues = s.cues ∧
      (s.seekAnew).play = s.play ∧ (s.seekAnew).colour = s.colour ∧ (s.seekAnew).axes = s.axes ∧
      (s.seekAnew).bridgeNext = s.bridgeNext ∧ (s.seekAnew).sense = s.sense ∧ (s.seekAnew).feed = s.feed ∧
      (s.seekAnew).store = s.store ∧ (s.seekAnew).settings = s.settings ∧ (s.seekAnew).setup = s.setup ∧
      (s.seekAnew).stats = s.stats ∧ (s.seekAnew).pins = s.pins ∧ (s.seekAnew).pending = s.pending := by
  simp only [State.seekAnew]
  simp

@[simp] theorem State.adopt_frame (b : BeaconFields) (e : Nat) :
    (s.adopt b e).ports = s.ports ∧ (s.adopt b e).outbox = s.outbox ∧ (s.adopt b e).longestWait = s.longestWait ∧
      (s.adopt b e).peers = s.peers ∧ (s.adopt b e).cues = s.cues ∧ (s.adopt b e).colour = s.colour ∧
      (s.adopt b e).axes = s.axes ∧ (s.adopt b e).bridgeNext = s.bridgeNext ∧ (s.adopt b e).sense = s.sense ∧
      (s.adopt b e).feed = s.feed ∧ (s.adopt b e).store = s.store ∧ (s.adopt b e).settings = s.settings ∧
      (s.adopt b e).setup = s.setup ∧ (s.adopt b e).pins = s.pins ∧ (s.adopt b e).pending = s.pending := by
  simp only [State.adopt]
  simp

@[simp] theorem State.beaconInFree_frame (o : Int) :
    (s.beaconInFree o).marks = s.marks ∧ (s.beaconInFree o).ports = s.ports ∧ (s.beaconInFree o).outbox = s.outbox ∧
      (s.beaconInFree o).longestWait = s.longestWait ∧ (s.beaconInFree o).peers = s.peers ∧
      (s.beaconInFree o).cues = s.cues ∧ (s.beaconInFree o).play = s.play ∧ (s.beaconInFree o).colour = s.colour ∧
      (s.beaconInFree o).axes = s.axes ∧ (s.beaconInFree o).bridgeNext = s.bridgeNext ∧
      (s.beaconInFree o).sense = s.sense ∧ (s.beaconInFree o).feed = s.feed ∧ (s.beaconInFree o).store = s.store ∧
      (s.beaconInFree o).settings = s.settings ∧ (s.beaconInFree o).setup = s.setup ∧
      (s.beaconInFree o).pins = s.pins ∧ (s.beaconInFree o).pending = s.pending := by
  simp only [State.beaconInFree]
  (repeat' split) <;> simp

@[simp] theorem State.lockIfCounted_frame :
    (s.lockIfCounted).marks = s.marks ∧ (s.lockIfCounted).ports = s.ports ∧ (s.lockIfCounted).outbox = s.outbox ∧
      (s.lockIfCounted).longestWait = s.longestWait ∧ (s.lockIfCounted).peers = s.peers ∧
      (s.lockIfCounted).cues = s.cues ∧ (s.lockIfCounted).play = s.play ∧ (s.lockIfCounted).colour = s.colour ∧
      (s.lockIfCounted).axes = s.axes ∧ (s.lockIfCounted).bridgeNext = s.bridgeNext ∧
      (s.lockIfCounted).sense = s.sense ∧ (s.lockIfCounted).feed = s.feed ∧ (s.lockIfCounted).store = s.store ∧
      (s.lockIfCounted).settings = s.settings ∧ (s.lockIfCounted).setup = s.setup ∧
      (s.lockIfCounted).stats = s.stats ∧ (s.lockIfCounted).pins = s.pins ∧
      (s.lockIfCounted).pending = s.pending := by
  simp only [State.lockIfCounted]
  (repeat' split) <;> simp

@[simp] theorem State.beaconInSeek_frame (o : Int) :
    (s.beaconInSeek o).marks = s.marks ∧ (s.beaconInSeek o).ports = s.ports ∧ (s.beaconInSeek o).outbox = s.outbox ∧
      (s.beaconInSeek o).longestWait = s.longestWait ∧ (s.beaconInSeek o).peers = s.peers ∧
      (s.beaconInSeek o).cues = s.cues ∧ (s.beaconInSeek o).play = s.play ∧ (s.beaconInSeek o).colour = s.colour ∧
      (s.beaconInSeek o).axes = s.axes ∧ (s.beaconInSeek o).bridgeNext = s.bridgeNext ∧
      (s.beaconInSeek o).sense = s.sense ∧ (s.beaconInSeek o).feed = s.feed ∧ (s.beaconInSeek o).store = s.store ∧
      (s.beaconInSeek o).settings = s.settings ∧ (s.beaconInSeek o).setup = s.setup ∧
      (s.beaconInSeek o).pins = s.pins ∧ (s.beaconInSeek o).pending = s.pending := by
  simp only [State.beaconInSeek]
  (repeat' split) <;> simp

@[simp] theorem State.reseekIfCounted_frame (o : Int) :
    (s.reseekIfCounted o).marks = s.marks ∧ (s.reseekIfCounted o).ports = s.ports ∧
      (s.reseekIfCounted o).outbox = s.outbox ∧ (s.reseekIfCounted o).longestWait = s.longestWait ∧
      (s.reseekIfCounted o).peers = s.peers ∧ (s.reseekIfCounted o).cues = s.cues ∧
      (s.reseekIfCounted o).play = s.play ∧ (s.reseekIfCounted o).colour = s.colour ∧
      (s.reseekIfCounted o).axes = s.axes ∧ (s.reseekIfCounted o).bridgeNext = s.bridgeNext ∧
      (s.reseekIfCounted o).sense = s.sense ∧ (s.reseekIfCounted o).feed = s.feed ∧
      (s.reseekIfCounted o).store = s.store ∧ (s.reseekIfCounted o).settings = s.settings ∧
      (s.reseekIfCounted o).setup = s.setup ∧ (s.reseekIfCounted o).pins = s.pins ∧
      (s.reseekIfCounted o).pending = s.pending := by
  simp only [State.reseekIfCounted]
  (repeat' split) <;> simp

@[simp] theorem State.beaconInLock_frame (o : Int) :
    (s.beaconInLock o).marks = s.marks ∧ (s.beaconInLock o).ports = s.ports ∧ (s.beaconInLock o).outbox = s.outbox ∧
      (s.beaconInLock o).longestWait = s.longestWait ∧ (s.beaconInLock o).peers = s.peers ∧
      (s.beaconInLock o).cues = s.cues ∧ (s.beaconInLock o).play = s.play ∧ (s.beaconInLock o).colour = s.colour ∧
      (s.beaconInLock o).axes = s.axes ∧ (s.beaconInLock o).bridgeNext = s.bridgeNext ∧
      (s.beaconInLock o).sense = s.sense ∧ (s.beaconInLock o).feed = s.feed ∧ (s.beaconInLock o).store = s.store ∧
      (s.beaconInLock o).settings = s.settings ∧ (s.beaconInLock o).setup = s.setup ∧
      (s.beaconInLock o).pins = s.pins ∧ (s.beaconInLock o).pending = s.pending := by
  simp only [State.beaconInLock]
  (repeat' split) <;> simp

@[simp] theorem State.beaconOfEpoch_frame (o : Int) :
    (s.beaconOfEpoch o).marks = s.marks ∧ (s.beaconOfEpoch o).ports = s.ports ∧
      (s.beaconOfEpoch o).outbox = s.outbox ∧ (s.beaconOfEpoch o).longestWait = s.longestWait ∧
      (s.beaconOfEpoch o).peers = s.peers ∧ (s.beaconOfEpoch o).cues = s.cues ∧ (s.beaconOfEpoch o).play = s.play ∧
      (s.beaconOfEpoch o).colour = s.colour ∧ (s.beaconOfEpoch o).axes = s.axes ∧
      (s.beaconOfEpoch o).bridgeNext = s.bridgeNext ∧ (s.beaconOfEpoch o).sense = s.sense ∧
      (s.beaconOfEpoch o).feed = s.feed ∧ (s.beaconOfEpoch o).store = s.store ∧
      (s.beaconOfEpoch o).settings = s.settings ∧ (s.beaconOfEpoch o).setup = s.setup ∧
      (s.beaconOfEpoch o).pins = s.pins ∧ (s.beaconOfEpoch o).pending = s.pending := by
  simp only [State.beaconOfEpoch]
  (repeat' split) <;> simp

@[simp] theorem State.clockTakes_frame (b : BeaconFields) (e : Nat) :
    (s.clockTakes b e).ports = s.ports ∧ (s.clockTakes b e).outbox = s.outbox ∧
      (s.clockTakes b e).longestWait = s.longestWait ∧ (s.clockTakes b e).peers = s.peers ∧
      (s.clockTakes b e).cues = s.cues ∧ (s.clockTakes b e).colour = s.colour ∧ (s.clockTakes b e).axes = s.axes ∧
      (s.clockTakes b e).bridgeNext = s.bridgeNext ∧ (s.clockTakes b e).sense = s.sense ∧
      (s.clockTakes b e).feed = s.feed ∧ (s.clockTakes b e).store = s.store ∧
      (s.clockTakes b e).settings = s.settings ∧ (s.clockTakes b e).setup = s.setup ∧
      (s.clockTakes b e).pins = s.pins ∧ (s.clockTakes b e).pending = s.pending := by
  simp only [State.clockTakes]
  (repeat' split) <;> simp

@[simp] theorem State.slew_frame :
    (s.slew).ports = s.ports ∧ (s.slew).outbox = s.outbox ∧ (s.slew).longestWait = s.longestWait ∧
      (s.slew).peers = s.peers ∧ (s.slew).cues = s.cues ∧ (s.slew).play = s.play ∧ (s.slew).colour = s.colour ∧
      (s.slew).axes = s.axes ∧ (s.slew).bridgeNext = s.bridgeNext ∧ (s.slew).sense = s.sense ∧
      (s.slew).feed = s.feed ∧ (s.slew).store = s.store ∧ (s.slew).settings = s.settings ∧ (s.slew).setup = s.setup ∧
      (s.slew).stats = s.stats ∧ (s.slew).pins = s.pins ∧ (s.slew).pending = s.pending := by
  simp only [State.slew]
  simp

@[simp] theorem State.enterHoldover_frame :
    (s.enterHoldover).marks = s.marks ∧ (s.enterHoldover).ports = s.ports ∧ (s.enterHoldover).outbox = s.outbox ∧
      (s.enterHoldover).longestWait = s.longestWait ∧ (s.enterHoldover).peers = s.peers ∧
      (s.enterHoldover).cues = s.cues ∧ (s.enterHoldover).play = s.play ∧ (s.enterHoldover).colour = s.colour ∧
      (s.enterHoldover).axes = s.axes ∧ (s.enterHoldover).bridgeNext = s.bridgeNext ∧
      (s.enterHoldover).sense = s.sense ∧ (s.enterHoldover).feed = s.feed ∧ (s.enterHoldover).store = s.store ∧
      (s.enterHoldover).settings = s.settings ∧ (s.enterHoldover).setup = s.setup ∧ (s.enterHoldover).pins = s.pins ∧
      (s.enterHoldover).pending = s.pending := by
  simp only [State.enterHoldover]
  simp

@[simp] theorem State.loseHoldover_frame :
    (s.loseHoldover).marks = s.marks ∧ (s.loseHoldover).ports = s.ports ∧ (s.loseHoldover).outbox = s.outbox ∧
      (s.loseHoldover).longestWait = s.longestWait ∧ (s.loseHoldover).peers = s.peers ∧
      (s.loseHoldover).cues = s.cues ∧ (s.loseHoldover).play = s.play ∧ (s.loseHoldover).colour = s.colour ∧
      (s.loseHoldover).axes = s.axes ∧ (s.loseHoldover).bridgeNext = s.bridgeNext ∧
      (s.loseHoldover).sense = s.sense ∧ (s.loseHoldover).feed = s.feed ∧ (s.loseHoldover).store = s.store ∧
      (s.loseHoldover).settings = s.settings ∧ (s.loseHoldover).setup = s.setup ∧ (s.loseHoldover).pins = s.pins ∧
      (s.loseHoldover).pending = s.pending := by
  simp only [State.loseHoldover]
  simp

@[simp] theorem State.loseSeek_frame :
    (s.loseSeek).marks = s.marks ∧ (s.loseSeek).ports = s.ports ∧ (s.loseSeek).outbox = s.outbox ∧
      (s.loseSeek).longestWait = s.longestWait ∧ (s.loseSeek).peers = s.peers ∧ (s.loseSeek).cues = s.cues ∧
      (s.loseSeek).play = s.play ∧ (s.loseSeek).colour = s.colour ∧ (s.loseSeek).axes = s.axes ∧
      (s.loseSeek).bridgeNext = s.bridgeNext ∧ (s.loseSeek).sense = s.sense ∧ (s.loseSeek).feed = s.feed ∧
      (s.loseSeek).store = s.store ∧ (s.loseSeek).settings = s.settings ∧ (s.loseSeek).setup = s.setup ∧
      (s.loseSeek).pins = s.pins ∧ (s.loseSeek).pending = s.pending := by
  simp only [State.loseSeek]
  simp

@[simp] theorem State.placeBeacon_frame :
    (s.placeBeacon).clock = s.clock ∧ (s.placeBeacon).marks = s.marks ∧ (s.placeBeacon).peers = s.peers ∧
      (s.placeBeacon).cues = s.cues ∧ (s.placeBeacon).play = s.play ∧ (s.placeBeacon).colour = s.colour ∧
      (s.placeBeacon).axes = s.axes ∧ (s.placeBeacon).bridgeNext = s.bridgeNext ∧ (s.placeBeacon).sense = s.sense ∧
      (s.placeBeacon).store = s.store ∧ (s.placeBeacon).settings = s.settings ∧ (s.placeBeacon).setup = s.setup ∧
      (s.placeBeacon).stats = s.stats ∧ (s.placeBeacon).pins = s.pins ∧ (s.placeBeacon).pending = s.pending := by
  simp only [State.placeBeacon]
  simp

@[simp] theorem State.beaconTick_frame :
    (s.beaconTick).marks = s.marks ∧ (s.beaconTick).peers = s.peers ∧ (s.beaconTick).cues = s.cues ∧
      (s.beaconTick).play = s.play ∧ (s.beaconTick).colour = s.colour ∧ (s.beaconTick).axes = s.axes ∧
      (s.beaconTick).bridgeNext = s.bridgeNext ∧ (s.beaconTick).sense = s.sense ∧ (s.beaconTick).store = s.store ∧
      (s.beaconTick).settings = s.settings ∧ (s.beaconTick).setup = s.setup ∧ (s.beaconTick).stats = s.stats ∧
      (s.beaconTick).pins = s.pins ∧ (s.beaconTick).pending = s.pending := by
  simp only [State.beaconTick]
  simp

/-! ### The Setup Store -/

@[simp] theorem State.rotate_frame (p : StatusPage) :
    (s.rotate p).clock = s.clock ∧ (s.rotate p).marks = s.marks ∧ (s.rotate p).ports = s.ports ∧
      (s.rotate p).outbox = s.outbox ∧ (s.rotate p).longestWait = s.longestWait ∧ (s.rotate p).peers = s.peers ∧
      (s.rotate p).cues = s.cues ∧ (s.rotate p).play = s.play ∧ (s.rotate p).colour = s.colour ∧
      (s.rotate p).axes = s.axes ∧ (s.rotate p).bridgeNext = s.bridgeNext ∧ (s.rotate p).sense = s.sense ∧
      (s.rotate p).feed = s.feed ∧ (s.rotate p).store = s.store ∧ (s.rotate p).settings = s.settings ∧
      (s.rotate p).stats = s.stats ∧ (s.rotate p).pins = s.pins ∧ (s.rotate p).pending = s.pending := by
  simp only [State.rotate]
  (repeat' split) <;> simp

@[simp] theorem State.reportWait_frame (p : StatusPage) :
    (s.reportWait p).clock = s.clock ∧ (s.reportWait p).marks = s.marks ∧ (s.reportWait p).ports = s.ports ∧
      (s.reportWait p).outbox = s.outbox ∧ (s.reportWait p).peers = s.peers ∧ (s.reportWait p).cues = s.cues ∧
      (s.reportWait p).play = s.play ∧ (s.reportWait p).colour = s.colour ∧ (s.reportWait p).axes = s.axes ∧
      (s.reportWait p).bridgeNext = s.bridgeNext ∧ (s.reportWait p).sense = s.sense ∧
      (s.reportWait p).feed = s.feed ∧ (s.reportWait p).store = s.store ∧ (s.reportWait p).settings = s.settings ∧
      (s.reportWait p).setup = s.setup ∧ (s.reportWait p).stats = s.stats ∧ (s.reportWait p).pins = s.pins ∧
      (s.reportWait p).pending = s.pending := by
  simp only [State.reportWait]
  (repeat' split) <;> simp

@[simp] theorem State.reply_frame (p : StatusPage) (o : Byte) :
    (s.reply p o).clock = s.clock ∧ (s.reply p o).marks = s.marks ∧ (s.reply p o).peers = s.peers ∧
      (s.reply p o).cues = s.cues ∧ (s.reply p o).play = s.play ∧ (s.reply p o).colour = s.colour ∧
      (s.reply p o).axes = s.axes ∧ (s.reply p o).bridgeNext = s.bridgeNext ∧ (s.reply p o).sense = s.sense ∧
      (s.reply p o).store = s.store ∧ (s.reply p o).settings = s.settings ∧ (s.reply p o).stats = s.stats ∧
      (s.reply p o).pins = s.pins ∧ (s.reply p o).pending = s.pending := by
  simp only [State.reply]
  simp

@[simp] theorem State.clearCounters_frame :
    (s.clearCounters).clock = s.clock ∧ (s.clearCounters).marks = s.marks ∧ (s.clearCounters).ports = s.ports ∧
      (s.clearCounters).outbox = s.outbox ∧ (s.clearCounters).peers = s.peers ∧ (s.clearCounters).cues = s.cues ∧
      (s.clearCounters).play = s.play ∧ (s.clearCounters).colour = s.colour ∧ (s.clearCounters).axes = s.axes ∧
      (s.clearCounters).bridgeNext = s.bridgeNext ∧ (s.clearCounters).sense = s.sense ∧
      (s.clearCounters).feed = s.feed ∧ (s.clearCounters).store = s.store ∧ (s.clearCounters).settings = s.settings ∧
      (s.clearCounters).setup = s.setup ∧ (s.clearCounters).pins = s.pins ∧
      (s.clearCounters).pending = s.pending := by
  simp only [State.clearCounters]
  simp

@[simp] theorem State.applyFlags_frame (a : StatusAskFields) :
    (s.applyFlags a).clock = s.clock ∧ (s.applyFlags a).marks = s.marks ∧ (s.applyFlags a).ports = s.ports ∧
      (s.applyFlags a).outbox = s.outbox ∧ (s.applyFlags a).peers = s.peers ∧ (s.applyFlags a).cues = s.cues ∧
      (s.applyFlags a).play = s.play ∧ (s.applyFlags a).colour = s.colour ∧ (s.applyFlags a).axes = s.axes ∧
      (s.applyFlags a).bridgeNext = s.bridgeNext ∧ (s.applyFlags a).sense = s.sense ∧
      (s.applyFlags a).feed = s.feed ∧ (s.applyFlags a).store = s.store ∧ (s.applyFlags a).settings = s.settings ∧
      (s.applyFlags a).pins = s.pins ∧ (s.applyFlags a).pending = s.pending := by
  simp only [State.applyFlags]
  (repeat' split) <;> simp

@[simp] theorem State.takeStatusAsk_frame (a : StatusAskFields) (o : Byte) :
    (s.takeStatusAsk a o).clock = s.clock ∧ (s.takeStatusAsk a o).marks = s.marks ∧
      (s.takeStatusAsk a o).peers = s.peers ∧ (s.takeStatusAsk a o).cues = s.cues ∧
      (s.takeStatusAsk a o).play = s.play ∧ (s.takeStatusAsk a o).colour = s.colour ∧
      (s.takeStatusAsk a o).axes = s.axes ∧ (s.takeStatusAsk a o).bridgeNext = s.bridgeNext ∧
      (s.takeStatusAsk a o).sense = s.sense ∧ (s.takeStatusAsk a o).store = s.store ∧
      (s.takeStatusAsk a o).settings = s.settings ∧ (s.takeStatusAsk a o).pins = s.pins ∧
      (s.takeStatusAsk a o).pending = s.pending := by
  simp only [State.takeStatusAsk]
  (repeat' split) <;> simp

@[simp] theorem State.takeSetup_frame (f : SetupFields) :
    (s.takeSetup f).clock = s.clock ∧ (s.takeSetup f).marks = s.marks ∧ (s.takeSetup f).ports = s.ports ∧
      (s.takeSetup f).outbox = s.outbox ∧ (s.takeSetup f).longestWait = s.longestWait ∧
      (s.takeSetup f).peers = s.peers ∧ (s.takeSetup f).cues = s.cues ∧ (s.takeSetup f).play = s.play ∧
      (s.takeSetup f).colour = s.colour ∧ (s.takeSetup f).axes = s.axes ∧ (s.takeSetup f).bridgeNext = s.bridgeNext ∧
      (s.takeSetup f).sense = s.sense ∧ (s.takeSetup f).feed = s.feed ∧ (s.takeSetup f).settings = s.settings ∧
      (s.takeSetup f).setup = s.setup ∧ (s.takeSetup f).pins = s.pins ∧ (s.takeSetup f).pending = s.pending := by
  simp only [State.takeSetup]
  (repeat' split) <;> simp

@[simp] theorem State.startStation_frame :
    (s.startStation).marks = s.marks ∧ (s.startStation).peers = s.peers ∧ (s.startStation).cues = s.cues ∧
      (s.startStation).play = s.play ∧ (s.startStation).colour = s.colour ∧ (s.startStation).axes = s.axes ∧
      (s.startStation).bridgeNext = s.bridgeNext ∧ (s.startStation).sense = s.sense ∧
      (s.startStation).store = s.store ∧ (s.startStation).settings = s.settings ∧ (s.startStation).setup = s.setup ∧
      (s.startStation).pins = s.pins ∧ (s.startStation).pending = s.pending := by
  simp only [State.startStation]
  simp

@[simp] theorem State.configure_frame :
    (s.configure).clock = s.clock ∧ (s.configure).marks = s.marks ∧ (s.configure).ports = s.ports ∧
      (s.configure).outbox = s.outbox ∧ (s.configure).longestWait = s.longestWait ∧ (s.configure).peers = s.peers ∧
      (s.configure).cues = s.cues ∧ (s.configure).axes = s.axes ∧ (s.configure).bridgeNext = s.bridgeNext ∧
      (s.configure).sense = s.sense ∧ (s.configure).store = s.store ∧ (s.configure).stats = s.stats ∧
      (s.configure).pins = s.pins ∧ (s.configure).pending = s.pending := by
  simp [State.configure]

@[simp] theorem State.completeRead_frame :
    (s.completeRead).marks = s.marks ∧ (s.completeRead).peers = s.peers ∧ (s.completeRead).cues = s.cues ∧
      (s.completeRead).axes = s.axes ∧ (s.completeRead).bridgeNext = s.bridgeNext ∧
      (s.completeRead).sense = s.sense ∧ (s.completeRead).store = s.store ∧ (s.completeRead).pins = s.pins ∧
      (s.completeRead).pending = s.pending := by
  simp only [State.completeRead]
  (repeat' split) <;> simp

@[simp] theorem State.deviceReset_frame :
    (s.deviceReset).store = s.store ∧ (s.deviceReset).pins = s.pins ∧ (s.deviceReset).pending = s.pending := by
  simp [State.deviceReset]

/-! ### The Link Interface -/

@[simp] theorem State.decideRelay_frame (p : Port) :
    (s.decideRelay p).clock = s.clock ∧ (s.decideRelay p).marks = s.marks ∧ (s.decideRelay p).outbox = s.outbox ∧
      (s.decideRelay p).longestWait = s.longestWait ∧ (s.decideRelay p).peers = s.peers ∧
      (s.decideRelay p).cues = s.cues ∧ (s.decideRelay p).play = s.play ∧ (s.decideRelay p).colour = s.colour ∧
      (s.decideRelay p).axes = s.axes ∧ (s.decideRelay p).bridgeNext = s.bridgeNext ∧
      (s.decideRelay p).sense = s.sense ∧ (s.decideRelay p).feed = s.feed ∧ (s.decideRelay p).store = s.store ∧
      (s.decideRelay p).settings = s.settings ∧ (s.decideRelay p).setup = s.setup ∧ (s.decideRelay p).pins = s.pins ∧
      (s.decideRelay p).pending = s.pending := by
  simp only [State.decideRelay]
  (repeat' split) <;> simp

@[simp] theorem State.takeLead_frame (p : Port) (c : Byte) :
    (s.takeLead p c).clock = s.clock ∧ (s.takeLead p c).marks = s.marks ∧ (s.takeLead p c).outbox = s.outbox ∧
      (s.takeLead p c).longestWait = s.longestWait ∧ (s.takeLead p c).peers = s.peers ∧
      (s.takeLead p c).cues = s.cues ∧ (s.takeLead p c).play = s.play ∧ (s.takeLead p c).colour = s.colour ∧
      (s.takeLead p c).axes = s.axes ∧ (s.takeLead p c).bridgeNext = s.bridgeNext ∧
      (s.takeLead p c).sense = s.sense ∧ (s.takeLead p c).feed = s.feed ∧ (s.takeLead p c).store = s.store ∧
      (s.takeLead p c).settings = s.settings ∧ (s.takeLead p c).setup = s.setup ∧ (s.takeLead p c).stats = s.stats ∧
      (s.takeLead p c).pins = s.pins ∧ (s.takeLead p c).pending = s.pending := by
  simp only [State.takeLead]
  (repeat' split) <;> simp

@[simp] theorem State.takeHeader_frame (p : Port) (c : Byte) :
    (s.takeHeader p c).clock = s.clock ∧ (s.takeHeader p c).marks = s.marks ∧ (s.takeHeader p c).outbox = s.outbox ∧
      (s.takeHeader p c).longestWait = s.longestWait ∧ (s.takeHeader p c).peers = s.peers ∧
      (s.takeHeader p c).cues = s.cues ∧ (s.takeHeader p c).play = s.play ∧ (s.takeHeader p c).colour = s.colour ∧
      (s.takeHeader p c).axes = s.axes ∧ (s.takeHeader p c).bridgeNext = s.bridgeNext ∧
      (s.takeHeader p c).sense = s.sense ∧ (s.takeHeader p c).feed = s.feed ∧ (s.takeHeader p c).store = s.store ∧
      (s.takeHeader p c).settings = s.settings ∧ (s.takeHeader p c).setup = s.setup ∧
      (s.takeHeader p c).pins = s.pins ∧ (s.takeHeader p c).pending = s.pending := by
  simp only [State.takeHeader]
  (repeat' split) <;> simp

@[simp] theorem State.takeBody_frame (p : Port) (c : Byte) :
    (s.takeBody p c).clock = s.clock ∧ (s.takeBody p c).marks = s.marks ∧ (s.takeBody p c).outbox = s.outbox ∧
      (s.takeBody p c).longestWait = s.longestWait ∧ (s.takeBody p c).peers = s.peers ∧
      (s.takeBody p c).cues = s.cues ∧ (s.takeBody p c).play = s.play ∧ (s.takeBody p c).colour = s.colour ∧
      (s.takeBody p c).axes = s.axes ∧ (s.takeBody p c).bridgeNext = s.bridgeNext ∧
      (s.takeBody p c).sense = s.sense ∧ (s.takeBody p c).feed = s.feed ∧ (s.takeBody p c).store = s.store ∧
      (s.takeBody p c).settings = s.settings ∧ (s.takeBody p c).setup = s.setup ∧ (s.takeBody p c).stats = s.stats ∧
      (s.takeBody p c).pins = s.pins ∧ (s.takeBody p c).pending = s.pending := by
  simp only [State.takeBody]
  (repeat' split) <;> simp

@[simp] theorem State.hearCharacter_frame (p : Port) (b : Bool) :
    (s.hearCharacter p b).clock = s.clock ∧ (s.hearCharacter p b).marks = s.marks ∧
      (s.hearCharacter p b).outbox = s.outbox ∧ (s.hearCharacter p b).longestWait = s.longestWait ∧
      (s.hearCharacter p b).peers = s.peers ∧ (s.hearCharacter p b).cues = s.cues ∧
      (s.hearCharacter p b).play = s.play ∧ (s.hearCharacter p b).colour = s.colour ∧
      (s.hearCharacter p b).axes = s.axes ∧ (s.hearCharacter p b).bridgeNext = s.bridgeNext ∧
      (s.hearCharacter p b).sense = s.sense ∧ (s.hearCharacter p b).feed = s.feed ∧
      (s.hearCharacter p b).store = s.store ∧ (s.hearCharacter p b).settings = s.settings ∧
      (s.hearCharacter p b).setup = s.setup ∧ (s.hearCharacter p b).stats = s.stats ∧
      (s.hearCharacter p b).pins = s.pins ∧ (s.hearCharacter p b).pending = s.pending := by
  simp only [State.hearCharacter]
  simp

@[simp] theorem State.takeCharacter_frame (p : Port) (c : Byte) (b : Bool) :
    (s.takeCharacter p c b).clock = s.clock ∧ (s.takeCharacter p c b).marks = s.marks ∧
      (s.takeCharacter p c b).outbox = s.outbox ∧ (s.takeCharacter p c b).longestWait = s.longestWait ∧
      (s.takeCharacter p c b).peers = s.peers ∧ (s.takeCharacter p c b).cues = s.cues ∧
      (s.takeCharacter p c b).play = s.play ∧ (s.takeCharacter p c b).colour = s.colour ∧
      (s.takeCharacter p c b).axes = s.axes ∧ (s.takeCharacter p c b).bridgeNext = s.bridgeNext ∧
      (s.takeCharacter p c b).sense = s.sense ∧ (s.takeCharacter p c b).feed = s.feed ∧
      (s.takeCharacter p c b).store = s.store ∧ (s.takeCharacter p c b).settings = s.settings ∧
      (s.takeCharacter p c b).setup = s.setup ∧ (s.takeCharacter p c b).pins = s.pins ∧
      (s.takeCharacter p c b).pending = s.pending := by
  simp only [State.takeCharacter]
  (repeat' split) <;> simp

@[simp] theorem State.discardFrame_frame (p : Port) :
    (s.discardFrame p).clock = s.clock ∧ (s.discardFrame p).marks = s.marks ∧ (s.discardFrame p).outbox = s.outbox ∧
      (s.discardFrame p).longestWait = s.longestWait ∧ (s.discardFrame p).peers = s.peers ∧
      (s.discardFrame p).cues = s.cues ∧ (s.discardFrame p).play = s.play ∧ (s.discardFrame p).colour = s.colour ∧
      (s.discardFrame p).axes = s.axes ∧ (s.discardFrame p).bridgeNext = s.bridgeNext ∧
      (s.discardFrame p).sense = s.sense ∧ (s.discardFrame p).feed = s.feed ∧ (s.discardFrame p).store = s.store ∧
      (s.discardFrame p).settings = s.settings ∧ (s.discardFrame p).setup = s.setup ∧
      (s.discardFrame p).pins = s.pins ∧ (s.discardFrame p).pending = s.pending := by
  simp only [State.discardFrame]
  simp

@[simp] theorem State.ownEcho_frame (p : Port) :
    (s.ownEcho p).clock = s.clock ∧ (s.ownEcho p).marks = s.marks ∧ (s.ownEcho p).outbox = s.outbox ∧
      (s.ownEcho p).longestWait = s.longestWait ∧ (s.ownEcho p).peers = s.peers ∧ (s.ownEcho p).cues = s.cues ∧
      (s.ownEcho p).play = s.play ∧ (s.ownEcho p).colour = s.colour ∧ (s.ownEcho p).axes = s.axes ∧
      (s.ownEcho p).bridgeNext = s.bridgeNext ∧ (s.ownEcho p).sense = s.sense ∧ (s.ownEcho p).feed = s.feed ∧
      (s.ownEcho p).store = s.store ∧ (s.ownEcho p).settings = s.settings ∧ (s.ownEcho p).setup = s.setup ∧
      (s.ownEcho p).pins = s.pins ∧ (s.ownEcho p).pending = s.pending := by
  simp only [State.ownEcho]
  simp

@[simp] theorem State.settleCopy_frame (p : Port) (a : Assembler) :
    (s.settleCopy p a).clock = s.clock ∧ (s.settleCopy p a).marks = s.marks ∧ (s.settleCopy p a).outbox = s.outbox ∧
      (s.settleCopy p a).longestWait = s.longestWait ∧ (s.settleCopy p a).peers = s.peers ∧
      (s.settleCopy p a).cues = s.cues ∧ (s.settleCopy p a).play = s.play ∧ (s.settleCopy p a).colour = s.colour ∧
      (s.settleCopy p a).axes = s.axes ∧ (s.settleCopy p a).bridgeNext = s.bridgeNext ∧
      (s.settleCopy p a).sense = s.sense ∧ (s.settleCopy p a).feed = s.feed ∧ (s.settleCopy p a).store = s.store ∧
      (s.settleCopy p a).settings = s.settings ∧ (s.settleCopy p a).setup = s.setup ∧
      (s.settleCopy p a).pins = s.pins ∧ (s.settleCopy p a).pending = s.pending := by
  simp only [State.settleCopy]
  (repeat' split) <;> simp

@[simp] theorem State.resetAsm_frame (p : Port) :
    (s.resetAsm p).clock = s.clock ∧ (s.resetAsm p).marks = s.marks ∧ (s.resetAsm p).outbox = s.outbox ∧
      (s.resetAsm p).longestWait = s.longestWait ∧ (s.resetAsm p).peers = s.peers ∧ (s.resetAsm p).cues = s.cues ∧
      (s.resetAsm p).play = s.play ∧ (s.resetAsm p).colour = s.colour ∧ (s.resetAsm p).axes = s.axes ∧
      (s.resetAsm p).bridgeNext = s.bridgeNext ∧ (s.resetAsm p).sense = s.sense ∧ (s.resetAsm p).feed = s.feed ∧
      (s.resetAsm p).store = s.store ∧ (s.resetAsm p).settings = s.settings ∧ (s.resetAsm p).setup = s.setup ∧
      (s.resetAsm p).stats = s.stats ∧ (s.resetAsm p).pins = s.pins ∧ (s.resetAsm p).pending = s.pending := by
  simp only [State.resetAsm]
  simp

@[simp] theorem State.portComesUp_frame (p : Port) :
    (s.portComesUp p).clock = s.clock ∧ (s.portComesUp p).marks = s.marks ∧ (s.portComesUp p).outbox = s.outbox ∧
      (s.portComesUp p).longestWait = s.longestWait ∧ (s.portComesUp p).peers = s.peers ∧
      (s.portComesUp p).cues = s.cues ∧ (s.portComesUp p).play = s.play ∧ (s.portComesUp p).colour = s.colour ∧
      (s.portComesUp p).axes = s.axes ∧ (s.portComesUp p).bridgeNext = s.bridgeNext ∧
      (s.portComesUp p).sense = s.sense ∧ (s.portComesUp p).feed = s.feed ∧ (s.portComesUp p).store = s.store ∧
      (s.portComesUp p).settings = s.settings ∧ (s.portComesUp p).setup = s.setup ∧
      (s.portComesUp p).stats = s.stats ∧ (s.portComesUp p).pins = s.pins ∧
      (s.portComesUp p).pending = s.pending := by
  simp only [State.portComesUp]
  simp

@[simp] theorem State.withdraw_frame (p : Port) (c : FrameClass) :
    (s.withdraw p c).clock = s.clock ∧ (s.withdraw p c).marks = s.marks ∧ (s.withdraw p c).ports = s.ports ∧
      (s.withdraw p c).peers = s.peers ∧ (s.withdraw p c).cues = s.cues ∧ (s.withdraw p c).play = s.play ∧
      (s.withdraw p c).colour = s.colour ∧ (s.withdraw p c).axes = s.axes ∧
      (s.withdraw p c).bridgeNext = s.bridgeNext ∧ (s.withdraw p c).sense = s.sense ∧
      (s.withdraw p c).store = s.store ∧ (s.withdraw p c).settings = s.settings ∧ (s.withdraw p c).setup = s.setup ∧
      (s.withdraw p c).stats = s.stats ∧ (s.withdraw p c).pins = s.pins ∧ (s.withdraw p c).pending = s.pending := by
  simp only [State.withdraw]
  simp

@[simp] theorem State.portDown_frame (p : Port) :
    (s.portDown p).clock = s.clock ∧ (s.portDown p).marks = s.marks ∧ (s.portDown p).peers = s.peers ∧
      (s.portDown p).cues = s.cues ∧ (s.portDown p).play = s.play ∧ (s.portDown p).colour = s.colour ∧
      (s.portDown p).axes = s.axes ∧ (s.portDown p).bridgeNext = s.bridgeNext ∧ (s.portDown p).sense = s.sense ∧
      (s.portDown p).store = s.store ∧ (s.portDown p).settings = s.settings ∧ (s.portDown p).setup = s.setup ∧
      (s.portDown p).pins = s.pins ∧ (s.portDown p).pending = s.pending := by
  simp [State.portDown, FrameClass.byPriority]

@[simp] theorem State.startChoice_frame (p : Port) (c : Choice) :
    (s.startChoice p c).clock = s.clock ∧ (s.startChoice p c).marks = s.marks ∧
      (s.startChoice p c).outbox = s.outbox ∧ (s.startChoice p c).longestWait = s.longestWait ∧
      (s.startChoice p c).peers = s.peers ∧ (s.startChoice p c).cues = s.cues ∧ (s.startChoice p c).play = s.play ∧
      (s.startChoice p c).colour = s.colour ∧ (s.startChoice p c).axes = s.axes ∧
      (s.startChoice p c).bridgeNext = s.bridgeNext ∧ (s.startChoice p c).sense = s.sense ∧
      (s.startChoice p c).feed = s.feed ∧ (s.startChoice p c).store = s.store ∧
      (s.startChoice p c).settings = s.settings ∧ (s.startChoice p c).setup = s.setup ∧
      (s.startChoice p c).stats = s.stats ∧ (s.startChoice p c).pins = s.pins ∧
      (s.startChoice p c).pending = s.pending := by
  simp only [State.startChoice]
  (repeat' split) <;> simp

@[simp] theorem State.relayedSent_frame (p : Port) :
    (s.relayedSent p).clock = s.clock ∧ (s.relayedSent p).marks = s.marks ∧ (s.relayedSent p).outbox = s.outbox ∧
      (s.relayedSent p).longestWait = s.longestWait ∧ (s.relayedSent p).peers = s.peers ∧
      (s.relayedSent p).cues = s.cues ∧ (s.relayedSent p).play = s.play ∧ (s.relayedSent p).colour = s.colour ∧
      (s.relayedSent p).axes = s.axes ∧ (s.relayedSent p).bridgeNext = s.bridgeNext ∧
      (s.relayedSent p).sense = s.sense ∧ (s.relayedSent p).feed = s.feed ∧ (s.relayedSent p).store = s.store ∧
      (s.relayedSent p).settings = s.settings ∧ (s.relayedSent p).setup = s.setup ∧ (s.relayedSent p).pins = s.pins ∧
      (s.relayedSent p).pending = s.pending := by
  simp only [State.relayedSent]
  simp

@[simp] theorem State.joinSent_frame (p : Port) (c : FrameClass) :
    (s.joinSent p c).clock = s.clock ∧ (s.joinSent p c).marks = s.marks ∧ (s.joinSent p c).ports = s.ports ∧
      (s.joinSent p c).peers = s.peers ∧ (s.joinSent p c).cues = s.cues ∧ (s.joinSent p c).play = s.play ∧
      (s.joinSent p c).colour = s.colour ∧ (s.joinSent p c).axes = s.axes ∧
      (s.joinSent p c).bridgeNext = s.bridgeNext ∧ (s.joinSent p c).sense = s.sense ∧
      (s.joinSent p c).store = s.store ∧ (s.joinSent p c).settings = s.settings ∧ (s.joinSent p c).setup = s.setup ∧
      (s.joinSent p c).pins = s.pins ∧ (s.joinSent p c).pending = s.pending := by
  simp only [State.joinSent]
  (repeat' split) <;> simp

@[simp] theorem State.ownSent_frame (p : Port) :
    (s.ownSent p).clock = s.clock ∧ (s.ownSent p).marks = s.marks ∧ (s.ownSent p).peers = s.peers ∧
      (s.ownSent p).cues = s.cues ∧ (s.ownSent p).play = s.play ∧ (s.ownSent p).colour = s.colour ∧
      (s.ownSent p).axes = s.axes ∧ (s.ownSent p).bridgeNext = s.bridgeNext ∧ (s.ownSent p).sense = s.sense ∧
      (s.ownSent p).store = s.store ∧ (s.ownSent p).settings = s.settings ∧ (s.ownSent p).setup = s.setup ∧
      (s.ownSent p).pins = s.pins ∧ (s.ownSent p).pending = s.pending := by
  simp only [State.ownSent]
  (repeat' split) <;> simp

end Sys2Proof.Machine
end

