-- ==== Sys2Proof/Laws/Counters.lean ====
section
/-! SUPPORT. What counting an event does to each group of counters, and a frame in to the rest. -/

namespace Sys2Proof.Machine

variable (s : State)

/-! ### Each group of counters after an event of each -/


@[simp] theorem State.tallyPort_stats_ports (p : Port) (f : PortStats → PortStats) :
    (s.tallyPort p f).stats.ports =
      if s.setup.counting then s.stats.ports.set p (f (s.stats.ports.get p)) else s.stats.ports := by
  simp only [State.tallyPort, State.tally, State.withStats]; split <;> rfl
@[simp] theorem State.tallyPort_stats_clock (p : Port) (f : PortStats → PortStats) :
    (s.tallyPort p f).stats.clock = s.stats.clock := by
  simp only [State.tallyPort, State.tally, State.withStats]; split <;> rfl
@[simp] theorem State.tallyPort_stats_peers (p : Port) (f : PortStats → PortStats) :
    (s.tallyPort p f).stats.peers = s.stats.peers := by
  simp only [State.tallyPort, State.tally, State.withStats]; split <;> rfl
@[simp] theorem State.tallyPort_stats_cues (p : Port) (f : PortStats → PortStats) :
    (s.tallyPort p f).stats.cues = s.stats.cues := by
  simp only [State.tallyPort, State.tally, State.withStats]; split <;> rfl
@[simp] theorem State.tallyPort_stats_play (p : Port) (f : PortStats → PortStats) :
    (s.tallyPort p f).stats.play = s.stats.play := by
  simp only [State.tallyPort, State.tally, State.withStats]; split <;> rfl
@[simp] theorem State.tallyPort_stats_plan (p : Port) (f : PortStats → PortStats) :
    (s.tallyPort p f).stats.plan = s.stats.plan := by
  simp only [State.tallyPort, State.tally, State.withStats]; split <;> rfl
@[simp] theorem State.tallyPort_stats_colour (p : Port) (f : PortStats → PortStats) :
    (s.tallyPort p f).stats.colour = s.stats.colour := by
  simp only [State.tallyPort, State.tally, State.withStats]; split <;> rfl
@[simp] theorem State.tallyPort_stats_axes (p : Port) (f : PortStats → PortStats) :
    (s.tallyPort p f).stats.axes = s.stats.axes := by
  simp only [State.tallyPort, State.tally, State.withStats]; split <;> rfl
@[simp] theorem State.tallyPort_stats_feed (p : Port) (f : PortStats → PortStats) :
    (s.tallyPort p f).stats.feed = s.stats.feed := by
  simp only [State.tallyPort, State.tally, State.withStats]; split <;> rfl
@[simp] theorem State.tallyPort_stats_setup (p : Port) (f : PortStats → PortStats) :
    (s.tallyPort p f).stats.setup = s.stats.setup := by
  simp only [State.tallyPort, State.tally, State.withStats]; split <;> rfl

@[simp] theorem State.tallyClock_stats_ports (f : ClockStats → ClockStats) :
    (s.tallyClock f).stats.ports = s.stats.ports := by
  simp only [State.tallyClock, State.tally, State.withStats]; split <;> rfl
@[simp] theorem State.tallyClock_stats_clock (f : ClockStats → ClockStats) :
    (s.tallyClock f).stats.clock = if s.setup.counting then f s.stats.clock else s.stats.clock := by
  simp only [State.tallyClock, State.tally, State.withStats]; split <;> rfl
@[simp] theorem State.tallyClock_stats_peers (f : ClockStats → ClockStats) :
    (s.tallyClock f).stats.peers = s.stats.peers := by
  simp only [State.tallyClock, State.tally, State.withStats]; split <;> rfl
@[simp] theorem State.tallyClock_stats_cues (f : ClockStats → ClockStats) :
    (s.tallyClock f).stats.cues = s.stats.cues := by
  simp only [State.tallyClock, State.tally, State.withStats]; split <;> rfl
@[simp] theorem State.tallyClock_stats_play (f : ClockStats → ClockStats) :
    (s.tallyClock f).stats.play = s.stats.play := by
  simp only [State.tallyClock, State.tally, State.withStats]; split <;> rfl
@[simp] theorem State.tallyClock_stats_plan (f : ClockStats → ClockStats) :
    (s.tallyClock f).stats.plan = s.stats.plan := by
  simp only [State.tallyClock, State.tally, State.withStats]; split <;> rfl
@[simp] theorem State.tallyClock_stats_colour (f : ClockStats → ClockStats) :
    (s.tallyClock f).stats.colour = s.stats.colour := by
  simp only [State.tallyClock, State.tally, State.withStats]; split <;> rfl
@[simp] theorem State.tallyClock_stats_axes (f : ClockStats → ClockStats) :
    (s.tallyClock f).stats.axes = s.stats.axes := by
  simp only [State.tallyClock, State.tally, State.withStats]; split <;> rfl
@[simp] theorem State.tallyClock_stats_feed (f : ClockStats → ClockStats) :
    (s.tallyClock f).stats.feed = s.stats.feed := by
  simp only [State.tallyClock, State.tally, State.withStats]; split <;> rfl
@[simp] theorem State.tallyClock_stats_setup (f : ClockStats → ClockStats) :
    (s.tallyClock f).stats.setup = s.stats.setup := by
  simp only [State.tallyClock, State.tally, State.withStats]; split <;> rfl

@[simp] theorem State.tallyPeers_stats_ports (f : PeerStats → PeerStats) :
    (s.tallyPeers f).stats.ports = s.stats.ports := by
  simp only [State.tallyPeers, State.tally, State.withStats]; split <;> rfl
@[simp] theorem State.tallyPeers_stats_clock (f : PeerStats → PeerStats) :
    (s.tallyPeers f).stats.clock = s.stats.clock := by
  simp only [State.tallyPeers, State.tally, State.withStats]; split <;> rfl
@[simp] theorem State.tallyPeers_stats_peers (f : PeerStats → PeerStats) :
    (s.tallyPeers f).stats.peers = if s.setup.counting then f s.stats.peers else s.stats.peers := by
  simp only [State.tallyPeers, State.tally, State.withStats]; split <;> rfl
@[simp] theorem State.tallyPeers_stats_cues (f : PeerStats → PeerStats) :
    (s.tallyPeers f).stats.cues = s.stats.cues := by
  simp only [State.tallyPeers, State.tally, State.withStats]; split <;> rfl
@[simp] theorem State.tallyPeers_stats_play (f : PeerStats → PeerStats) :
    (s.tallyPeers f).stats.play = s.stats.play := by
  simp only [State.tallyPeers, State.tally, State.withStats]; split <;> rfl
@[simp] theorem State.tallyPeers_stats_plan (f : PeerStats → PeerStats) :
    (s.tallyPeers f).stats.plan = s.stats.plan := by
  simp only [State.tallyPeers, State.tally, State.withStats]; split <;> rfl
@[simp] theorem State.tallyPeers_stats_colour (f : PeerStats → PeerStats) :
    (s.tallyPeers f).stats.colour = s.stats.colour := by
  simp only [State.tallyPeers, State.tally, State.withStats]; split <;> rfl
@[simp] theorem State.tallyPeers_stats_axes (f : PeerStats → PeerStats) :
    (s.tallyPeers f).stats.axes = s.stats.axes := by
  simp only [State.tallyPeers, State.tally, State.withStats]; split <;> rfl
@[simp] theorem State.tallyPeers_stats_feed (f : PeerStats → PeerStats) :
    (s.tallyPeers f).stats.feed = s.stats.feed := by
  simp only [State.tallyPeers, State.tally, State.withStats]; split <;> rfl
@[simp] theorem State.tallyPeers_stats_setup (f : PeerStats → PeerStats) :
    (s.tallyPeers f).stats.setup = s.stats.setup := by
  simp only [State.tallyPeers, State.tally, State.withStats]; split <;> rfl

@[simp] theorem State.tallyCues_stats_ports (f : CueStats → CueStats) :
    (s.tallyCues f).stats.ports = s.stats.ports := by
  simp only [State.tallyCues, State.tally, State.withStats]; split <;> rfl
@[simp] theorem State.tallyCues_stats_clock (f : CueStats → CueStats) :
    (s.tallyCues f).stats.clock = s.stats.clock := by
  simp only [State.tallyCues, State.tally, State.withStats]; split <;> rfl
@[simp] theorem State.tallyCues_stats_peers (f : CueStats → CueStats) :
    (s.tallyCues f).stats.peers = s.stats.peers := by
  simp only [State.tallyCues, State.tally, State.withStats]; split <;> rfl
@[simp] theorem State.tallyCues_stats_cues (f : CueStats → CueStats) :
    (s.tallyCues f).stats.cues = if s.setup.counting then f s.stats.cues else s.stats.cues := by
  simp only [State.tallyCues, State.tally, State.withStats]; split <;> rfl
@[simp] theorem State.tallyCues_stats_play (f : CueStats → CueStats) :
    (s.tallyCues f).stats.play = s.stats.play := by
  simp only [State.tallyCues, State.tally, State.withStats]; split <;> rfl
@[simp] theorem State.tallyCues_stats_plan (f : CueStats → CueStats) :
    (s.tallyCues f).stats.plan = s.stats.plan := by
  simp only [State.tallyCues, State.tally, State.withStats]; split <;> rfl
@[simp] theorem State.tallyCues_stats_colour (f : CueStats → CueStats) :
    (s.tallyCues f).stats.colour = s.stats.colour := by
  simp only [State.tallyCues, State.tally, State.withStats]; split <;> rfl
@[simp] theorem State.tallyCues_stats_axes (f : CueStats → CueStats) :
    (s.tallyCues f).stats.axes = s.stats.axes := by
  simp only [State.tallyCues, State.tally, State.withStats]; split <;> rfl
@[simp] theorem State.tallyCues_stats_feed (f : CueStats → CueStats) :
    (s.tallyCues f).stats.feed = s.stats.feed := by
  simp only [State.tallyCues, State.tally, State.withStats]; split <;> rfl
@[simp] theorem State.tallyCues_stats_setup (f : CueStats → CueStats) :
    (s.tallyCues f).stats.setup = s.stats.setup := by
  simp only [State.tallyCues, State.tally, State.withStats]; split <;> rfl

@[simp] theorem State.tallyPlay_stats_ports (f : PlayStats → PlayStats) :
    (s.tallyPlay f).stats.ports = s.stats.ports := by
  simp only [State.tallyPlay, State.tally, State.withStats]; split <;> rfl
@[simp] theorem State.tallyPlay_stats_clock (f : PlayStats → PlayStats) :
    (s.tallyPlay f).stats.clock = s.stats.clock := by
  simp only [State.tallyPlay, State.tally, State.withStats]; split <;> rfl
@[simp] theorem State.tallyPlay_stats_peers (f : PlayStats → PlayStats) :
    (s.tallyPlay f).stats.peers = s.stats.peers := by
  simp only [State.tallyPlay, State.tally, State.withStats]; split <;> rfl
@[simp] theorem State.tallyPlay_stats_cues (f : PlayStats → PlayStats) :
    (s.tallyPlay f).stats.cues = s.stats.cues := by
  simp only [State.tallyPlay, State.tally, State.withStats]; split <;> rfl
@[simp] theorem State.tallyPlay_stats_play (f : PlayStats → PlayStats) :
    (s.tallyPlay f).stats.play = if s.setup.counting then f s.stats.play else s.stats.play := by
  simp only [State.tallyPlay, State.tally, State.withStats]; split <;> rfl
@[simp] theorem State.tallyPlay_stats_plan (f : PlayStats → PlayStats) :
    (s.tallyPlay f).stats.plan = s.stats.plan := by
  simp only [State.tallyPlay, State.tally, State.withStats]; split <;> rfl
@[simp] theorem State.tallyPlay_stats_colour (f : PlayStats → PlayStats) :
    (s.tallyPlay f).stats.colour = s.stats.colour := by
  simp only [State.tallyPlay, State.tally, State.withStats]; split <;> rfl
@[simp] theorem State.tallyPlay_stats_axes (f : PlayStats → PlayStats) :
    (s.tallyPlay f).stats.axes = s.stats.axes := by
  simp only [State.tallyPlay, State.tally, State.withStats]; split <;> rfl
@[simp] theorem State.tallyPlay_stats_feed (f : PlayStats → PlayStats) :
    (s.tallyPlay f).stats.feed = s.stats.feed := by
  simp only [State.tallyPlay, State.tally, State.withStats]; split <;> rfl
@[simp] theorem State.tallyPlay_stats_setup (f : PlayStats → PlayStats) :
    (s.tallyPlay f).stats.setup = s.stats.setup := by
  simp only [State.tallyPlay, State.tally, State.withStats]; split <;> rfl

@[simp] theorem State.tallyPlan_stats_ports (f : PlanStats → PlanStats) :
    (s.tallyPlan f).stats.ports = s.stats.ports := by
  simp only [State.tallyPlan, State.tally, State.withStats]; split <;> rfl
@[simp] theorem State.tallyPlan_stats_clock (f : PlanStats → PlanStats) :
    (s.tallyPlan f).stats.clock = s.stats.clock := by
  simp only [State.tallyPlan, State.tally, State.withStats]; split <;> rfl
@[simp] theorem State.tallyPlan_stats_peers (f : PlanStats → PlanStats) :
    (s.tallyPlan f).stats.peers = s.stats.peers := by
  simp only [State.tallyPlan, State.tally, State.withStats]; split <;> rfl
@[simp] theorem State.tallyPlan_stats_cues (f : PlanStats → PlanStats) :
    (s.tallyPlan f).stats.cues = s.stats.cues := by
  simp only [State.tallyPlan, State.tally, State.withStats]; split <;> rfl
@[simp] theorem State.tallyPlan_stats_play (f : PlanStats → PlanStats) :
    (s.tallyPlan f).stats.play = s.stats.play := by
  simp only [State.tallyPlan, State.tally, State.withStats]; split <;> rfl
@[simp] theorem State.tallyPlan_stats_plan (f : PlanStats → PlanStats) :
    (s.tallyPlan f).stats.plan = if s.setup.counting then f s.stats.plan else s.stats.plan := by
  simp only [State.tallyPlan, State.tally, State.withStats]; split <;> rfl
@[simp] theorem State.tallyPlan_stats_colour (f : PlanStats → PlanStats) :
    (s.tallyPlan f).stats.colour = s.stats.colour := by
  simp only [State.tallyPlan, State.tally, State.withStats]; split <;> rfl
@[simp] theorem State.tallyPlan_stats_axes (f : PlanStats → PlanStats) :
    (s.tallyPlan f).stats.axes = s.stats.axes := by
  simp only [State.tallyPlan, State.tally, State.withStats]; split <;> rfl
@[simp] theorem State.tallyPlan_stats_feed (f : PlanStats → PlanStats) :
    (s.tallyPlan f).stats.feed = s.stats.feed := by
  simp only [State.tallyPlan, State.tally, State.withStats]; split <;> rfl
@[simp] theorem State.tallyPlan_stats_setup (f : PlanStats → PlanStats) :
    (s.tallyPlan f).stats.setup = s.stats.setup := by
  simp only [State.tallyPlan, State.tally, State.withStats]; split <;> rfl

@[simp] theorem State.tallyColour_stats_ports (f : ColourStats → ColourStats) :
    (s.tallyColour f).stats.ports = s.stats.ports := by
  simp only [State.tallyColour, State.tally, State.withStats]; split <;> rfl
@[simp] theorem State.tallyColour_stats_clock (f : ColourStats → ColourStats) :
    (s.tallyColour f).stats.clock = s.stats.clock := by
  simp only [State.tallyColour, State.tally, State.withStats]; split <;> rfl
@[simp] theorem State.tallyColour_stats_peers (f : ColourStats → ColourStats) :
    (s.tallyColour f).stats.peers = s.stats.peers := by
  simp only [State.tallyColour, State.tally, State.withStats]; split <;> rfl
@[simp] theorem State.tallyColour_stats_cues (f : ColourStats → ColourStats) :
    (s.tallyColour f).stats.cues = s.stats.cues := by
  simp only [State.tallyColour, State.tally, State.withStats]; split <;> rfl
@[simp] theorem State.tallyColour_stats_play (f : ColourStats → ColourStats) :
    (s.tallyColour f).stats.play = s.stats.play := by
  simp only [State.tallyColour, State.tally, State.withStats]; split <;> rfl
@[simp] theorem State.tallyColour_stats_plan (f : ColourStats → ColourStats) :
    (s.tallyColour f).stats.plan = s.stats.plan := by
  simp only [State.tallyColour, State.tally, State.withStats]; split <;> rfl
@[simp] theorem State.tallyColour_stats_colour (f : ColourStats → ColourStats) :
    (s.tallyColour f).stats.colour = if s.setup.counting then f s.stats.colour else s.stats.colour := by
  simp only [State.tallyColour, State.tally, State.withStats]; split <;> rfl
@[simp] theorem State.tallyColour_stats_axes (f : ColourStats → ColourStats) :
    (s.tallyColour f).stats.axes = s.stats.axes := by
  simp only [State.tallyColour, State.tally, State.withStats]; split <;> rfl
@[simp] theorem State.tallyColour_stats_feed (f : ColourStats → ColourStats) :
    (s.tallyColour f).stats.feed = s.stats.feed := by
  simp only [State.tallyColour, State.tally, State.withStats]; split <;> rfl
@[simp] theorem State.tallyColour_stats_setup (f : ColourStats → ColourStats) :
    (s.tallyColour f).stats.setup = s.stats.setup := by
  simp only [State.tallyColour, State.tally, State.withStats]; split <;> rfl

@[simp] theorem State.tallyAxis_stats_ports (x : Axis) (f : AxisStats → AxisStats) :
    (s.tallyAxis x f).stats.ports = s.stats.ports := by
  simp only [State.tallyAxis, State.tally, State.withStats]; split <;> rfl
@[simp] theorem State.tallyAxis_stats_clock (x : Axis) (f : AxisStats → AxisStats) :
    (s.tallyAxis x f).stats.clock = s.stats.clock := by
  simp only [State.tallyAxis, State.tally, State.withStats]; split <;> rfl
@[simp] theorem State.tallyAxis_stats_peers (x : Axis) (f : AxisStats → AxisStats) :
    (s.tallyAxis x f).stats.peers = s.stats.peers := by
  simp only [State.tallyAxis, State.tally, State.withStats]; split <;> rfl
@[simp] theorem State.tallyAxis_stats_cues (x : Axis) (f : AxisStats → AxisStats) :
    (s.tallyAxis x f).stats.cues = s.stats.cues := by
  simp only [State.tallyAxis, State.tally, State.withStats]; split <;> rfl
@[simp] theorem State.tallyAxis_stats_play (x : Axis) (f : AxisStats → AxisStats) :
    (s.tallyAxis x f).stats.play = s.stats.play := by
  simp only [State.tallyAxis, State.tally, State.withStats]; split <;> rfl
@[simp] theorem State.tallyAxis_stats_plan (x : Axis) (f : AxisStats → AxisStats) :
    (s.tallyAxis x f).stats.plan = s.stats.plan := by
  simp only [State.tallyAxis, State.tally, State.withStats]; split <;> rfl
@[simp] theorem State.tallyAxis_stats_colour (x : Axis) (f : AxisStats → AxisStats) :
    (s.tallyAxis x f).stats.colour = s.stats.colour := by
  simp only [State.tallyAxis, State.tally, State.withStats]; split <;> rfl
@[simp] theorem State.tallyAxis_stats_axes (x : Axis) (f : AxisStats → AxisStats) :
    (s.tallyAxis x f).stats.axes =
      if s.setup.counting then s.stats.axes.set x (f (s.stats.axes.get x)) else s.stats.axes := by
  simp only [State.tallyAxis, State.tally, State.withStats]; split <;> rfl
@[simp] theorem State.tallyAxis_stats_feed (x : Axis) (f : AxisStats → AxisStats) :
    (s.tallyAxis x f).stats.feed = s.stats.feed := by
  simp only [State.tallyAxis, State.tally, State.withStats]; split <;> rfl
@[simp] theorem State.tallyAxis_stats_setup (x : Axis) (f : AxisStats → AxisStats) :
    (s.tallyAxis x f).stats.setup = s.stats.setup := by
  simp only [State.tallyAxis, State.tally, State.withStats]; split <;> rfl

@[simp] theorem State.tallyFeed_stats_ports (f : FeedStats → FeedStats) :
    (s.tallyFeed f).stats.ports = s.stats.ports := by
  simp only [State.tallyFeed, State.tally, State.withStats]; split <;> rfl
@[simp] theorem State.tallyFeed_stats_clock (f : FeedStats → FeedStats) :
    (s.tallyFeed f).stats.clock = s.stats.clock := by
  simp only [State.tallyFeed, State.tally, State.withStats]; split <;> rfl
@[simp] theorem State.tallyFeed_stats_peers (f : FeedStats → FeedStats) :
    (s.tallyFeed f).stats.peers = s.stats.peers := by
  simp only [State.tallyFeed, State.tally, State.withStats]; split <;> rfl
@[simp] theorem State.tallyFeed_stats_cues (f : FeedStats → FeedStats) :
    (s.tallyFeed f).stats.cues = s.stats.cues := by
  simp only [State.tallyFeed, State.tally, State.withStats]; split <;> rfl
@[simp] theorem State.tallyFeed_stats_play (f : FeedStats → FeedStats) :
    (s.tallyFeed f).stats.play = s.stats.play := by
  simp only [State.tallyFeed, State.tally, State.withStats]; split <;> rfl
@[simp] theorem State.tallyFeed_stats_plan (f : FeedStats → FeedStats) :
    (s.tallyFeed f).stats.plan = s.stats.plan := by
  simp only [State.tallyFeed, State.tally, State.withStats]; split <;> rfl
@[simp] theorem State.tallyFeed_stats_colour (f : FeedStats → FeedStats) :
    (s.tallyFeed f).stats.colour = s.stats.colour := by
  simp only [State.tallyFeed, State.tally, State.withStats]; split <;> rfl
@[simp] theorem State.tallyFeed_stats_axes (f : FeedStats → FeedStats) :
    (s.tallyFeed f).stats.axes = s.stats.axes := by
  simp only [State.tallyFeed, State.tally, State.withStats]; split <;> rfl
@[simp] theorem State.tallyFeed_stats_feed (f : FeedStats → FeedStats) :
    (s.tallyFeed f).stats.feed = if s.setup.counting then f s.stats.feed else s.stats.feed := by
  simp only [State.tallyFeed, State.tally, State.withStats]; split <;> rfl
@[simp] theorem State.tallyFeed_stats_setup (f : FeedStats → FeedStats) :
    (s.tallyFeed f).stats.setup = s.stats.setup := by
  simp only [State.tallyFeed, State.tally, State.withStats]; split <;> rfl

@[simp] theorem State.tallySetup_stats_ports (f : SetupStats → SetupStats) :
    (s.tallySetup f).stats.ports = s.stats.ports := by
  simp only [State.tallySetup, State.tally, State.withStats]; split <;> rfl
@[simp] theorem State.tallySetup_stats_clock (f : SetupStats → SetupStats) :
    (s.tallySetup f).stats.clock = s.stats.clock := by
  simp only [State.tallySetup, State.tally, State.withStats]; split <;> rfl
@[simp] theorem State.tallySetup_stats_peers (f : SetupStats → SetupStats) :
    (s.tallySetup f).stats.peers = s.stats.peers := by
  simp only [State.tallySetup, State.tally, State.withStats]; split <;> rfl
@[simp] theorem State.tallySetup_stats_cues (f : SetupStats → SetupStats) :
    (s.tallySetup f).stats.cues = s.stats.cues := by
  simp only [State.tallySetup, State.tally, State.withStats]; split <;> rfl
@[simp] theorem State.tallySetup_stats_play (f : SetupStats → SetupStats) :
    (s.tallySetup f).stats.play = s.stats.play := by
  simp only [State.tallySetup, State.tally, State.withStats]; split <;> rfl
@[simp] theorem State.tallySetup_stats_plan (f : SetupStats → SetupStats) :
    (s.tallySetup f).stats.plan = s.stats.plan := by
  simp only [State.tallySetup, State.tally, State.withStats]; split <;> rfl
@[simp] theorem State.tallySetup_stats_colour (f : SetupStats → SetupStats) :
    (s.tallySetup f).stats.colour = s.stats.colour := by
  simp only [State.tallySetup, State.tally, State.withStats]; split <;> rfl
@[simp] theorem State.tallySetup_stats_axes (f : SetupStats → SetupStats) :
    (s.tallySetup f).stats.axes = s.stats.axes := by
  simp only [State.tallySetup, State.tally, State.withStats]; split <;> rfl
@[simp] theorem State.tallySetup_stats_feed (f : SetupStats → SetupStats) :
    (s.tallySetup f).stats.feed = s.stats.feed := by
  simp only [State.tallySetup, State.tally, State.withStats]; split <;> rfl
@[simp] theorem State.tallySetup_stats_setup (f : SetupStats → SetupStats) :
    (s.tallySetup f).stats.setup = if s.setup.counting then f s.stats.setup else s.stats.setup := by
  simp only [State.tallySetup, State.tally, State.withStats]; split <;> rfl

/-! ### A frame counted in frames in -/

@[simp] theorem State.heard_clock (f : Frame) : (s.heard f).clock = s.clock := rfl
@[simp] theorem State.heard_marks (f : Frame) : (s.heard f).marks = s.marks := rfl
@[simp] theorem State.heard_ports (f : Frame) : (s.heard f).ports = s.ports := rfl
@[simp] theorem State.heard_outbox (f : Frame) : (s.heard f).outbox = s.outbox := rfl
@[simp] theorem State.heard_longestWait (f : Frame) : (s.heard f).longestWait = s.longestWait := rfl
@[simp] theorem State.heard_peers (f : Frame) : (s.heard f).peers = s.peers := rfl
@[simp] theorem State.heard_cues (f : Frame) : (s.heard f).cues = s.cues := rfl
@[simp] theorem State.heard_play (f : Frame) : (s.heard f).play = s.play := rfl
@[simp] theorem State.heard_colour (f : Frame) : (s.heard f).colour = s.colour := rfl
@[simp] theorem State.heard_axes (f : Frame) : (s.heard f).axes = s.axes := rfl
@[simp] theorem State.heard_bridgeNext (f : Frame) : (s.heard f).bridgeNext = s.bridgeNext := rfl
@[simp] theorem State.heard_sense (f : Frame) : (s.heard f).sense = s.sense := rfl
@[simp] theorem State.heard_feed (f : Frame) : (s.heard f).feed = s.feed := rfl
@[simp] theorem State.heard_store (f : Frame) : (s.heard f).store = s.store := rfl
@[simp] theorem State.heard_settings (f : Frame) : (s.heard f).settings = s.settings := rfl
@[simp] theorem State.heard_setup (f : Frame) : (s.heard f).setup = s.setup := rfl
@[simp] theorem State.heard_pins (f : Frame) : (s.heard f).pins = s.pins := rfl
@[simp] theorem State.heard_pending (f : Frame) : (s.heard f).pending = s.pending := rfl
@[simp] theorem State.heard_stats_clock (f : Frame) : (s.heard f).stats.clock = s.stats.clock := by
  simp [State.heard]
@[simp] theorem State.heard_stats_peers (f : Frame) : (s.heard f).stats.peers = s.stats.peers := by
  simp [State.heard]
@[simp] theorem State.heard_stats_cues (f : Frame) : (s.heard f).stats.cues = s.stats.cues := by
  simp [State.heard]
@[simp] theorem State.heard_stats_play (f : Frame) : (s.heard f).stats.play = s.stats.play := by
  simp [State.heard]
@[simp] theorem State.heard_stats_plan (f : Frame) : (s.heard f).stats.plan = s.stats.plan := by
  simp [State.heard]
@[simp] theorem State.heard_stats_colour (f : Frame) : (s.heard f).stats.colour = s.stats.colour := by
  simp [State.heard]
@[simp] theorem State.heard_stats_axes (f : Frame) : (s.heard f).stats.axes = s.stats.axes := by
  simp [State.heard]
@[simp] theorem State.heard_stats_feed (f : Frame) : (s.heard f).stats.feed = s.stats.feed := by
  simp [State.heard]
@[simp] theorem State.heard_stats_setup (f : Frame) : (s.heard f).stats.setup = s.stats.setup := by
  simp [State.heard]
@[simp] theorem State.heard_uptime (f : Frame) : (s.heard f).uptime = s.uptime := rfl
@[simp] theorem State.heard_showTick (f : Frame) : (s.heard f).showTick = s.showTick := rfl

end Sys2Proof.Machine
end

