-- ==== Sys2Proof/Laws/Accept.lean ====
section
/-! SUPPORT. What the shared operations do with a command's frame: accepted, not addressed, or of the wrong size (R9, R10);
and when two states are one. -/

namespace Sys2Proof.Machine

variable {s : State} {k : FrameKind} {f : Frame} {g : State → State}

/-- Two states with the same parts are one. -/
@[ext] theorem State.ext {s t : State} (clock : s.clock = t.clock) (marks : s.marks = t.marks) (ports : s.ports = t.ports)
    (outbox : s.outbox = t.outbox) (longestWait : s.longestWait = t.longestWait) (peers : s.peers = t.peers)
    (cues : s.cues = t.cues) (play : s.play = t.play) (colour : s.colour = t.colour) (axes : s.axes = t.axes)
    (bridgeNext : s.bridgeNext = t.bridgeNext) (sense : s.sense = t.sense) (feed : s.feed = t.feed)
    (store : s.store = t.store) (settings : s.settings = t.settings) (setup : s.setup = t.setup)
    (stats : s.stats = t.stats) (pins : s.pins = t.pins) (pending : s.pending = t.pending) : s = t := by
  cases s; cases t; simp_all

/-! ### Acceptance -/

theorem accepts_of_addressed (h : Addressed s f) : s.accepts k f = true := by
  obtain ⟨hr, hc, h1, h2, hs, hd⟩ := h
  have hto : f.dest.toNat = 255 ↔ f.dest = toAll := by
    constructor
    · intro h; exact BitVec.eq_of_toNat_eq (by simpa [toAll] using h)
    · rintro h; simp [h, toAll]
  have hzero : f.dest.toNat = 0 ↔ f.dest = 0 := by
    constructor
    · intro h; exact BitVec.eq_of_toNat_eq (by simpa using h)
    · rintro h; simp [h]
  simp only [hto, hzero] at hd
  simp [State.accepts, State.isOwnEcho, Frame.originIsStation, groupsMeet, hr, hc, h1, h2, hs]
  rcases hd with h | h | ⟨h, hg⟩ <;> simp [h]
  exact .inr hg

theorem addressed_of_accepts (hc : s.setup.configured = true) (h : s.accepts k f = true) : Addressed s f := by
  have hto : f.dest = toAll → f.dest.toNat = 255 := by rintro h; simp [h, toAll]
  simp [State.accepts, State.isOwnEcho, Frame.originIsStation, groupsMeet, hc] at h
  obtain ⟨⟨⟨hr, h1, h2⟩, h3⟩, h4⟩ := h
  refine ⟨hr, hc, h1, h2, fun e => ?_, ?_⟩
  · rcases h3 with h3 | h3 <;> omega
  · rcases h4 with (h | h) | h
    · exact .inl h
    · exact .inr (.inl (hto h))
    · exact .inr (.inr ⟨by simp [h.1], h.2⟩)

theorem sizeOk_iff : k.sizeOk f.payload = true ↔ RightSize k f := by
  simp [FrameKind.sizeOk, RightSize]

/-- A frame that is taken is counted in frames in and given to its consumer (R10). -/
theorem handOn_of_taken (h : Taken s k f) : s.handOn k f g = g (s.heard f) := by
  simp [State.handOn, accepts_of_addressed h.1, sizeOk_iff.mpr h.2, State.heard, sat]

/-- An accepted frame of the wrong size is counted in bad size (R10). -/
theorem handOn_of_badSize (h : Addressed s f) (hk : ¬ RightSize k f) :
    s.handOn k f g = s.tallyPort f.port fun t => { t with badSize := min (t.badSize + 1) 65535 } := by
  simp [State.handOn, accepts_of_addressed h, sizeOk_iff, hk, sat]

/-- What is handed on is either the state left alone, or one with a counter raised, or the consumer's (R9, R10). -/
theorem handOn_cases : s.handOn k f g = s ∨
    (s.handOn k f g = s.tallyPort f.port fun t => { t with badSize := sat t.badSize }) ∨
    (s.accepts k f = true ∧ k.sizeOk f.payload = true ∧ s.handOn k f g = g (s.heard f)) := by
  unfold State.handOn
  split
  · split
    · exact .inr (.inr ⟨‹_›, ‹_›, rfl⟩)
    · exact .inr (.inl rfl)
  · exact .inl rfl

/-- Counting a frame does not change whether it is accepted. -/
theorem accepts_heard (s : State) (k : FrameKind) (f : Frame) : (s.heard f).accepts k f = s.accepts k f := rfl

end Sys2Proof.Machine
end

