-- ==== Sys2Proof/Laws/Arithmetic.lean ====
section
/-! SUPPORT. What the arithmetic of 00_scope.md, section 4.3, gives: bounds, rounding and searches. -/

namespace Sys2Proof.Machine

/-! ### Bringing a value within bounds -/

theorem clampNat_bounds {lo hi : Nat} (h : lo ≤ hi) (x : Nat) : lo ≤ clampNat lo hi x ∧ clampNat lo hi x ≤ hi := by
  unfold clampNat
  repeat' split
  all_goals omega

theorem clampNat_of_within {lo hi x : Nat} (h₁ : lo ≤ x) (h₂ : x ≤ hi) : clampNat lo hi x = x := by
  unfold clampNat
  rw [if_neg (by omega), if_neg (by omega)]

theorem clampInt_bounds {lo hi : Int} (h : lo ≤ hi) (x : Int) : lo ≤ clampInt lo hi x ∧ clampInt lo hi x ≤ hi := by
  unfold clampInt
  repeat' split
  all_goals omega

theorem clampInt_eq {lo hi : Int} (h : lo ≤ hi) (x : Int) : clampInt lo hi x = max lo (min hi x) := by
  unfold clampInt
  repeat' split
  all_goals omega

/-- A velocity brought toward an aim changes by no more than it may, and passes neither its old value nor the aim (R132). -/
theorem toward_bounds (a : Nat) (v aim : Int) :
    v - a ≤ toward a v aim ∧ toward a v aim ≤ v + a ∧ (toward a v aim).natAbs ≤ max v.natAbs aim.natAbs := by
  unfold toward clampInt
  repeat' split
  all_goals omega

/-! ### Rounding -/

theorem roundDiv_nonneg (n d : Nat) : roundDiv (n : Int) d = ((2 * n + d) / (2 * d) : Nat) := by
  unfold roundDiv
  rcases Nat.eq_zero_or_pos n with rfl | h
  · rcases Nat.eq_zero_or_pos d with rfl | hd
    · rfl
    · have : (2 * 0 + d) / (2 * d) = 0 := Nat.div_eq_of_lt (by omega)
      rw [this]; simp
  · rw [Int.sign_eq_one_of_pos (by omega)]
    simp

/-- The least whole number at or above a quotient: it reaches it, and nothing below does (00_scope.md, section 4.3). -/
theorem ceilDiv_le_iff {n d t : Nat} (hd : 0 < d) : ceilDiv n d ≤ t ↔ n ≤ d * t := by
  unfold ceilDiv
  constructor
  · intro h
    have := Nat.lt_mul_div_succ (n + (d - 1)) hd
    have hm : d * ((n + (d - 1)) / d) ≤ d * t := Nat.mul_le_mul_left d h
    rw [Nat.mul_add] at this
    omega
  · intro h
    have : (n + (d - 1)) / d < t + 1 := (Nat.div_lt_iff_lt_mul hd).mpr (by rw [Nat.mul_comm, Nat.mul_add]; omega)
    omega

/-! ### Searches -/

/-- A search adds to its start less than two to the number of its bits, keeps `p` where the start has it, and misses
nothing below that bound. -/
theorem searchFrom_spec (p : Nat → Bool) (down : ∀ m n, m ≤ n → p n = true → p m = true) (bits acc : Nat)
    (h : p acc = true) :
    p (searchFrom p bits acc) = true ∧ ∀ n, n < acc + 2 ^ bits → p n = true → n ≤ searchFrom p bits acc := by
  induction bits generalizing acc with
  | zero => exact ⟨h, fun n hn _ => by simp [searchFrom] at hn ⊢; omega⟩
  | succ bits ih =>
    simp only [searchFrom]
    split
    · rename_i hp
      obtain ⟨h1, h2⟩ := ih _ hp
      exact ⟨h1, fun n hn => h2 n (by rw [Nat.pow_succ] at hn; omega)⟩
    · rename_i hp
      obtain ⟨h1, h2⟩ := ih _ h
      refine ⟨h1, fun n hn hpn => ?_⟩
      rcases Nat.lt_or_ge n (acc + 2 ^ bits) with hlt | hge
      · exact h2 n hlt hpn
      · exact absurd (down _ _ hge hpn) hp

/-- What a search for the largest number finds. -/
theorem largestSuch_spec (p : Nat → Bool) (down : ∀ m n, m ≤ n → p n = true → p m = true) (h : p 0 = true)
    (bits : Nat) : p (largestSuch p bits) = true ∧ ∀ n, n < 2 ^ bits → p n = true → n ≤ largestSuch p bits := by
  have := searchFrom_spec p down bits 0 h
  simpa [largestSuch] using this

/-- What a search for the smallest number finds, when one within its reach has the property. -/
theorem smallestSuch_spec (p : Nat → Bool) (up : ∀ m n, m ≤ n → p m = true → p n = true) (bits : Nat)
    (h : p (2 ^ bits) = true) :
    p (smallestSuch p bits) = true ∧ ∀ n, p n = true → smallestSuch p bits ≤ n := by
  unfold smallestSuch
  by_cases h0 : p 0 = true
  · simp [h0]
  · rw [if_neg h0]
    have hn0 : (!p 0) = true := by simpa using h0
    obtain ⟨h1, h2⟩ := largestSuch_spec (fun n => !p n)
      (fun m n hm hn => by
        have : p n ≠ true := by simpa using hn
        simpa using fun e => this (up m n hm e)) hn0 bits
    constructor
    · rcases Nat.lt_or_ge (largestSuch (fun n => !p n) bits + 1) (2 ^ bits) with hlt | hge
      · refine Decidable.byContradiction fun hc => ?_
        have := h2 _ hlt (by simpa using hc)
        omega
      · exact up _ _ hge h
    · intro n hn
      refine Decidable.byContradiction fun hc => ?_
      have hle : n ≤ largestSuch (fun n => !p n) bits := by omega
      have := up _ _ hle hn
      simp [this] at h1

end Sys2Proof.Machine
end

