-- ==== Sys2Proof/Laws/Boundary.lean ====
section
/-! SUPPORT. What an axis driver does with a boundary, in the terms of the statements: preloads, velocity, and the whole
boundary by its event (R50, R131 to R138). -/

namespace Sys2Proof.Machine

/-! ### Marks (R50) -/

@[simp] theorem Marks.mark_epoch (m : Marks) (epoch : Nat) (b : Int) : (m.mark epoch b).epoch = epoch := rfl
@[simp] theorem Marks.mark_playback (m : Marks) (epoch : Nat) (b : Int) :
    (m.mark epoch b).playback = m.playback ++ [b] := rfl
@[simp] theorem Marks.mark_axes (m : Marks) (epoch : Nat) (b : Int) (x : Axis) :
    (m.mark epoch b).axes.get x = m.axes.get x ++ [b] := by cases x <;> rfl
@[simp] theorem Marks.mark_colour (m : Marks) (epoch : Nat) (b : Int) : (m.mark epoch b).colour = m.colour ++ [b] := rfl
@[simp] theorem Marks.mark_feed (m : Marks) (epoch : Nat) (b : Int) : (m.mark epoch b).feed = m.feed ++ [b] := rfl

/-! ### Preloads (R138) -/

theorem AxisState.coilDrive_eq_preloadOf (a : AxisState) (st : AxisSettings) (c : Coil) :
    a.coilDrive st c = a.preloadOf st c := by
  unfold AxisState.coilDrive AxisState.preloadOf bridgeDuty AxisState.driven
  simp only [roundDiv_nonneg, Int.toNat_natCast]
  cases h : a.current <;> simp
  by_cases h1 : a.bridgeEnable = true <;> by_cases h2 : a.mode = .tripped <;> simp [h1, h2]

theorem AxisState.rewrite_eq_preloaded (a : AxisState) (st : AxisSettings) : a.rewrite st = a.preloaded st := by
  simp [AxisState.rewrite, AxisState.preloaded, coilDrive_eq_preloadOf]

/-! ### Velocity and position (R132, R133) -/

theorem toward_eq (aEff : Nat) (v aim : Int) : toward aEff v aim = max (v - aEff) (min (v + aEff) aim) := by
  unfold toward
  rw [clampInt_eq (by omega)]

theorem followVelocity_eq_followed (st : AxisSettings) (grant : Nat) (a : AxisState) (setpoint : Int) :
    followVelocity st.vmax (effectiveAccel st grant) setpoint a.pos16 a.v16 = followed st grant a setpoint := by
  unfold followVelocity followed
  rw [toward_eq, clampInt_eq (by omega)]

/-- A boundary's move and its new walk together are the axis carried by its velocity (R133, R136). -/
theorem AxisState.move_newWalk (a : AxisState) (v : Int) : (a.move v).newWalk = a.carried v := by
  simp [AxisState.move, AxisState.newWalk, AxisState.carried, AxisState.position,
    clampInt_eq (show (-134217728 : Int) ≤ 134217727 by decide)]

/-! ### The whole boundary (R131) -/

/-- The end of a boundary: lag, current and run flag by their rules, a new walk, and both preloads (R134 to R138). -/
theorem AxisState.finishBoundary_eq (a : AxisState) (st : AxisSettings) (row : AxisMode) (laneFades : Bool) (e : AxisEvent)
    (setpoint : Int) (grant : Nat) :
    a.finishBoundary st row laneFades e setpoint grant =
      ({ a with
        walk := { origin := a.output, target := a.pos16 / 16, walked := 0 }, lag := a.lagAfter e setpoint,
        current := (runRow row (a.v16 != 0) laneFades).map fun r => if r then grant else st.holdCurrent,
        running := (runRow row (a.v16 != 0) laneFades).getD false } : AxisState).preloaded st := by
  unfold AxisState.finishBoundary AxisState.setCurrent
  rw [AxisState.rewrite_eq_preloaded]
  rcases runRow row (a.v16 != 0) laneFades with _ | _ | _ <;> rfl

/-- An axis driver takes the front boundary: the axis after the event it has, homing begun where a SLIP request may, and
the rest of the boundary (R131, R152 to R159). -/
theorem execAxisBoundary_eq (s : State) (x : Axis) (b : Int) (rest : List Int) (h : s.marks.axes.get x = b :: rest)
    (event : AxisEvent) (he : (s.axisMoved x b).eventAt x (s.positionAt x b) = event) (homes : Bool)
    (hh : ((s.axisMoved x b).applyEvent (s.settings.axes.get x) event).slipRequestTaken (s.settings.axes.get x)
      (s.intensityAt b) = homes) :
    execAxisBoundary x s = .next
      (let a1 := (s.axisMoved x b).applyEvent (s.settings.axes.get x) event
       let a2 := if homes then a1.beginHoming else a1
       let row := if event = .countSet then .homing .set else a2.mode
       let a3 := a2.finishBoundary (s.settings.axes.get x) row (decide (s.play.pos.timing.state = .fade)) event
        (s.positionAt x b) (s.feed.grant.get x)
       let s1 := (s.withMarks { s.marks with axes := s.marks.axes.set x rest }).withAxis x a3
       let s2 := s1.tallyAxis x fun t =>
        let t1 := t.countEvent event
        if homes then { t1 with homesBegun := sat t1.homesBegun } else t1
       if homes then s2.douse else s2) := by
  subst he hh
  simp only [execAxisBoundary, h, State.axisBoundary, List.tail_cons]

end Sys2Proof.Machine
end

