-- ==== Sys2Proof/Laws/Outbox.lean ====
section
/-! SUPPORT. What a placement in the outbox does, and what superseding a class leaves of the ports (R18, R20). -/

namespace Sys2Proof.Machine

variable (s : State) (c : FrameClass)

theorem Transmitter.supersede_lastEnded (t : Transmitter) : (t.supersede c).lastEnded = t.lastEnded := by
  unfold Transmitter.supersede
  repeat' split
  all_goals rfl

/-- Superseding a class touches nothing of a port but what its transmission carries (R18). -/
@[simp] theorem State.supersede_port (p : Port) :
    (s.supersede c).ports.get p = { s.ports.get p with tx := (s.ports.get p).tx.supersede c } := by
  cases p <;> rfl

/-- The entry time a placement gives: a pending entry's own, else the present uptime (R18). -/
def State.placedAt : Nat :=
  match (s.outbox.get c).entry with
  | some e => e.entryTime
  | none => s.uptime

/-- A placement that is not freed at once leaves its entry in the slot, with the ports it is to be sent on (R18). -/
theorem State.place_outbox (dest : Byte) (payload : List Byte) (h : s.portsUp ≠ noPort ∨ c = .beacon) :
    (s.place c dest payload).outbox =
      s.outbox.set c
        { s.outbox.get c with
          entry := some
            { dest := dest, payload := payload, entryTime := s.placedAt c,
              waited := if s.portsUp = noPort then allPorts else s.portsUp,
              send := if c = .beacon then allPorts else if s.portsUp = noPort then allPorts else s.portsUp,
              sent := noPort } } := by
  have hn : ¬ (s.portsUp = noPort ∧ decide (c = .beacon) = false) := by
    rintro ⟨h1, h2⟩
    rcases h with h | h
    · exact h h1
    · simp [h] at h2
  simp only [State.place, if_neg hn, State.placedAt]
  cases c <;> rfl

/-- With no port UP a placement of any class but BEACON is freed at once (R18). -/
theorem State.place_freed (dest : Byte) (payload : List Byte) (h : s.portsUp = noPort) (hc : c ≠ .beacon) :
    s.place c dest payload = (s.supersede c).freeEntry c (s.placedAt c) := by
  have hn : s.portsUp = noPort ∧ decide (c = .beacon) = false := ⟨h, by simp [hc]⟩
  unfold State.place
  rw [if_pos hn]
  rfl

/-- A placement that is not freed at once changes the outbox and the transmissions it supersedes, and no more (R18). -/
theorem State.place_eq (dest : Byte) (payload : List Byte) (h : s.portsUp ≠ noPort ∨ c = .beacon) :
    s.place c dest payload = (s.supersede c).withOutbox (s.place c dest payload).outbox := by
  have hn : ¬ (s.portsUp = noPort ∧ decide (c = .beacon) = false) := by
    rintro ⟨h1, h2⟩
    rcases h with h | h
    · exact h h1
    · simp [h] at h2
  simp only [State.place, if_neg hn]
  rfl

theorem State.portsUp_ne_noPort (h : s.ports.a.up = true ∨ s.ports.b.up = true) : s.portsUp ≠ noPort := by
  intro he
  simp [State.portsUp, noPort, bothPorts] at he
  rcases h with h | h <;> simp [h] at he

/-- What a transmitter's supersession by a placement is: present content of the class is present no longer (R18). -/
theorem Transmitter.supersede_eq (t : Transmitter) : t.supersede c =
    { t with current := t.current.map fun x =>
        if x.source = .own c true then { x with source := .own c false } else x } := by
  obtain ⟨_ | ⟨src, bytes, started⟩, l, a⟩ := t
  · rfl
  · cases src with
    | relayed => rfl
    | own c' b => by_cases h : c' = c <;> cases b <;> simp [Transmitter.supersede, h]

/-- All that a placement of a class other than BEACON does to the outbox, the ports and the longest wait (R18, R20). -/
theorem State.place_notePlaced (dest : Byte) (payload : List Byte) (hc : c ≠ .beacon) :
    NotePlaced s (s.place c dest payload) c dest payload := by
  have e : s.placedAt c = ((s.outbox.get c).entry.map fun e => e.entryTime).getD (s.clock.thirds / 3000) := by
    simp only [State.placedAt, State.uptime]
    cases (s.outbox.get c).entry <;> rfl
  by_cases h : s.ports.a.up = true ∨ s.ports.b.up = true
  · have hn := s.portsUp_ne_noPort h
    refine ⟨?_, ?_, fun p => ?_⟩
    · rw [s.place_outbox c dest payload (.inl hn), if_neg hn, if_neg hc, if_pos h, e]; rfl
    · rw [s.place_eq c dest payload (.inl hn), if_pos h]; rfl
    · rw [s.place_eq c dest payload (.inl hn)]
      simp only [State.withOutbox_ports, State.supersede_port, Transmitter.supersede_eq]
  · have hn : s.portsUp = noPort := by
      simp only [not_or, Bool.not_eq_true] at h
      simp [State.portsUp, noPort, bothPorts, h]
    rw [s.place_freed c dest payload hn hc, e]
    refine ⟨?_, ?_, fun p => ?_⟩
    · rw [if_neg h]
      cases c <;> first | exact absurd rfl hc | rfl
    · rw [if_neg h]
      cases c <;> first | exact absurd rfl hc | rfl
    · have : ((s.supersede c).freeEntry c (((s.outbox.get c).entry.map fun e => e.entryTime).getD
          (s.clock.thirds / 3000))).ports = (s.supersede c).ports := by cases c <;> rfl
      rw [this, State.supersede_port, Transmitter.supersede_eq]

end Sys2Proof.Machine
end

