-- ==== Sys2Proof/Laws/Lists.lean ====
section
/-! SUPPORT. The ordered lists of the block: peer records by station number (R24), cues by number (R53). -/

namespace Sys2Proof.Machine

/-! ### Peer records -/

/-- The record put is the one found under its station. -/
theorem peerOf_putPeer_self (r : PeerRecord) (ps : List PeerRecord) : peerOf (putPeer r ps) r.station = some r := by
  induction ps with
  | nil => simp [putPeer, peerOf]
  | cons q rest ih =>
    simp only [putPeer]
    split
    · simp [peerOf]
    · split
      · simp [peerOf]
      · rename_i h1 h2
        have : (q.station == r.station) = false := by simpa using fun h : q.station = r.station => h2 h.symm
        simpa [peerOf, this] using ih

/-- Putting a record leaves every other station's. -/
theorem peerOf_putPeer_of_ne (r : PeerRecord) (ps : List PeerRecord) {n : Nat} (h : n ≠ r.station) :
    peerOf (putPeer r ps) n = peerOf ps n := by
  have hr : (r.station == n) = false := by simpa using fun e : r.station = n => h e.symm
  induction ps with
  | nil => simp [putPeer, peerOf, hr]
  | cons q rest ih =>
    simp only [putPeer]
    split
    · simp [peerOf, hr]
    · split
      · rename_i _ h2
        have : (q.station == n) = false := by simpa [← h2] using fun e : r.station = n => h e.symm
        simp [peerOf, hr, this]
      · simp only [peerOf, List.find?_cons] at ih ⊢
        split <;> simp_all

/-- A dropped station has no record. -/
theorem peerOf_dropPeer_self (ps : List PeerRecord) (n : Nat) : peerOf (dropPeer ps n) n = none := by
  simp [peerOf, dropPeer, List.find?_eq_none]

/-- Dropping a station leaves every other station's record. -/
theorem peerOf_dropPeer_of_ne (ps : List PeerRecord) {n m : Nat} (h : m ≠ n) :
    peerOf (dropPeer ps n) m = peerOf ps m := by
  induction ps with
  | nil => rfl
  | cons q rest ih =>
    simp only [peerOf, dropPeer, List.filter_cons, List.find?_cons] at ih ⊢
    by_cases hq : q.station = n
    · have hn : (n == m) = false := by simpa using fun e : n = m => h e.symm
      simpa [hq, hn] using ih
    · simp [hq]
      split <;> simp_all

/-- The station of a record found. -/
theorem station_of_peerOf {ps : List PeerRecord} {n : Nat} {r : PeerRecord} (h : peerOf ps n = some r) :
    r.station = n := by
  have := List.find?_some h
  simpa using this

theorem mem_of_peerOf {ps : List PeerRecord} {n : Nat} {r : PeerRecord} (h : peerOf ps n = some r) : r ∈ ps :=
  List.mem_of_find?_eq_some h

/-- The stations of a table after a record is put: its own and those before. -/
theorem mem_putPeer {r q : PeerRecord} {ps : List PeerRecord} (h : q ∈ putPeer r ps) : q = r ∨ q ∈ ps := by
  induction ps with
  | nil => simpa [putPeer] using h
  | cons p rest ih =>
    simp only [putPeer] at h
    split at h
    · simpa using h
    · split at h
      · rcases List.mem_cons.mp h with h | h
        · exact .inl h
        · exact .inr (List.mem_cons_of_mem _ h)
      · rcases List.mem_cons.mp h with h | h
        · exact .inr (h ▸ List.mem_cons_self)
        · rcases ih h with h | h
          · exact .inl h
          · exact .inr (List.mem_cons_of_mem _ h)

/-- Putting a record keeps the ascending order. -/
theorem putPeer_sorted (r : PeerRecord) {ps : List PeerRecord} (h : ps.Pairwise fun x y => x.station < y.station) :
    (putPeer r ps).Pairwise fun x y => x.station < y.station := by
  induction ps with
  | nil => simp [putPeer]
  | cons q rest ih =>
    obtain ⟨hq, hrest⟩ := List.pairwise_cons.mp h
    simp only [putPeer]
    split
    · rename_i h1
      refine List.pairwise_cons.mpr ⟨fun x hx => ?_, h⟩
      rcases List.mem_cons.mp hx with rfl | hx
      · exact h1
      · exact Nat.lt_trans h1 (hq x hx)
    · split
      · rename_i _ h2
        exact List.pairwise_cons.mpr ⟨fun x hx => h2 ▸ hq x hx, hrest⟩
      · rename_i h1 h2
        refine List.pairwise_cons.mpr ⟨fun x hx => ?_, ih hrest⟩
        rcases mem_putPeer hx with rfl | hx
        · omega
        · exact hq x hx

/-- Putting the record of a station already held keeps the number of records; a new one adds one. -/
theorem putPeer_length_le (r : PeerRecord) (ps : List PeerRecord) : (putPeer r ps).length ≤ ps.length + 1 := by
  induction ps with
  | nil => simp [putPeer]
  | cons q rest ih =>
    simp only [putPeer]
    split
    · simp
    · split <;> simp
      omega

theorem putPeer_length_of_held {r : PeerRecord} {ps : List PeerRecord}
    (hs : ps.Pairwise fun x y => x.station < y.station) (h : ∃ q ∈ ps, q.station = r.station) :
    (putPeer r ps).length = ps.length := by
  induction ps with
  | nil => simp at h
  | cons q rest ih =>
    obtain ⟨hq, hrest⟩ := List.pairwise_cons.mp hs
    simp only [putPeer]
    split
    · rename_i h1
      obtain ⟨x, hx, e⟩ := h
      rcases List.mem_cons.mp hx with rfl | hx
      · omega
      · have := hq x hx; omega
    · split
      · simp
      · rename_i h1 h2
        obtain ⟨x, hx, e⟩ := h
        rcases List.mem_cons.mp hx with rfl | hx
        · omega
        · simp [ih hrest ⟨x, hx, e⟩]

/-! ### Cues -/

/-- The cue stored is the one found under its number (R58). -/
theorem find_insertCue_self (q : Cue) (cs : List Cue) :
    (insertCue q cs).find? (fun x => x.number == q.number) = some q := by
  induction cs with
  | nil => simp [insertCue]
  | cons r rest ih =>
    simp only [insertCue]
    split
    · simp
    · split
      · simp
      · rename_i h1 h2
        have : (r.number == q.number) = false := by simpa using fun h : r.number = q.number => h2 h.symm
        simpa [this] using ih

/-- Storing a cue leaves every other number's (R58). -/
theorem find_insertCue_of_ne (q : Cue) (cs : List Cue) {n : Nat} (h : n ≠ q.number) :
    (insertCue q cs).find? (fun x => x.number == n) = cs.find? fun x => x.number == n := by
  have hq : (q.number == n) = false := by simpa using fun e : q.number = n => h e.symm
  induction cs with
  | nil => simp [insertCue, hq]
  | cons r rest ih =>
    simp only [insertCue]
    split
    · simp [hq]
    · split
      · rename_i _ h2
        have : (r.number == n) = false := by simpa [← h2] using fun e : q.number = n => h e.symm
        simp [hq, this]
      · simp only [List.find?_cons] at ih ⊢
        split <;> simp_all

/-- The cues of a list after one is stored: that one and those before. -/
theorem mem_insertCue {q x : Cue} {cs : List Cue} (h : x ∈ insertCue q cs) : x = q ∨ x ∈ cs := by
  induction cs with
  | nil => simpa [insertCue] using h
  | cons r rest ih =>
    simp only [insertCue] at h
    split at h
    · simpa using h
    · split at h
      · rcases List.mem_cons.mp h with h | h
        · exact .inl h
        · exact .inr (List.mem_cons_of_mem _ h)
      · rcases List.mem_cons.mp h with h | h
        · exact .inr (h ▸ List.mem_cons_self)
        · rcases ih h with h | h
          · exact .inl h
          · exact .inr (List.mem_cons_of_mem _ h)

/-- Storing a cue keeps the ascending order (R53, R58). -/
theorem insertCue_sorted (q : Cue) {cs : List Cue} (h : cs.Pairwise fun x y => x.number < y.number) :
    (insertCue q cs).Pairwise fun x y => x.number < y.number := by
  induction cs with
  | nil => simp [insertCue]
  | cons r rest ih =>
    obtain ⟨hr, hrest⟩ := List.pairwise_cons.mp h
    simp only [insertCue]
    split
    · rename_i h1
      refine List.pairwise_cons.mpr ⟨fun x hx => ?_, h⟩
      rcases List.mem_cons.mp hx with rfl | hx
      · exact h1
      · exact Nat.lt_trans h1 (hr x hx)
    · split
      · rename_i _ h2
        exact List.pairwise_cons.mpr ⟨fun x hx => h2 ▸ hr x hx, hrest⟩
      · rename_i h1 h2
        refine List.pairwise_cons.mpr ⟨fun x hx => ?_, ih hrest⟩
        rcases mem_insertCue hx with rfl | hx
        · omega
        · exact hr x hx

/-- Storing a cue adds one record at most. -/
theorem insertCue_length_le (q : Cue) (cs : List Cue) : (insertCue q cs).length ≤ cs.length + 1 := by
  induction cs with
  | nil => simp [insertCue]
  | cons r rest ih =>
    simp only [insertCue]
    split
    · simp
    · split <;> simp
      omega

/-- Storing a cue in place of the one of its number keeps the number of records (R58). -/
theorem insertCue_length_of_held {q : Cue} {cs : List Cue} (hs : cs.Pairwise fun x y => x.number < y.number)
    (h : ∃ x ∈ cs, x.number = q.number) : (insertCue q cs).length = cs.length := by
  induction cs with
  | nil => simp at h
  | cons r rest ih =>
    obtain ⟨hr, hrest⟩ := List.pairwise_cons.mp hs
    simp only [insertCue]
    split
    · rename_i h1
      obtain ⟨x, hx, e⟩ := h
      rcases List.mem_cons.mp hx with rfl | hx
      · omega
      · have := hr x hx; omega
    · split
      · simp
      · rename_i h1 h2
        obtain ⟨x, hx, e⟩ := h
        rcases List.mem_cons.mp hx with rfl | hx
        · omega
        · simp [ih hrest ⟨x, hx, e⟩]

/-- Storing a cue numbered above a line leaves the records at or below it (R63). -/
theorem filter_insertCue_of_above (q : Cue) (cs : List Cue) {line : Nat} (h : line < q.number) :
    ((insertCue q cs).filter fun x => x.number ≤ line) = cs.filter fun x => x.number ≤ line := by
  have hq : decide (q.number ≤ line) = false := by simpa using h
  induction cs with
  | nil => simp [insertCue, hq]
  | cons r rest ih =>
    simp only [insertCue]
    split
    · simp [List.filter_cons, hq]
    · split
      · rename_i _ h2
        have : decide (r.number ≤ line) = false := by simpa [← h2] using h
        simp [hq, this]
      · simp [List.filter_cons, ih]

end Sys2Proof.Machine
end

