-- ==== Sys2Proof/Laws/Memory.lean ====
section
/-! SUPPORT. The setup record: what a write leaves readable, and that every write keeps the canonical form. -/

namespace Sys2Proof.Machine

/-! ### Reading after writing -/

/-- Below every address a rising list holds, nothing is listed. -/
theorem readCell_below (m : List Host.Cell) (low a : Nat) (h : Memory.risingFrom low m = true) (ha : a < low) :
    readCell m a = 0xFF := by
  induction m generalizing low with
  | nil => rfl
  | cons x rest ih =>
    obtain ⟨k, v⟩ := x
    simp only [Memory.risingFrom, Bool.and_eq_true, decide_eq_true_eq] at h
    have hne : k ≠ a := by omega
    simp only [readCell, if_neg hne]
    exact ih (k + 1) h.2 (by omega)

/-- The byte written is the byte read. -/
theorem readCell_writeCell_self (m : List Host.Cell) (low a : Nat) (b : Byte) (h : Memory.risingFrom low m = true) :
    readCell (writeCell a b m) a = b := by
  induction m generalizing low with
  | nil =>
    simp only [writeCell]
    split
    · next hb => simp [readCell, hb]
    · simp [readCell]
  | cons x rest ih =>
    obtain ⟨k, v⟩ := x
    simp only [Memory.risingFrom, Bool.and_eq_true, decide_eq_true_eq] at h
    simp only [writeCell]
    split
    · next hlt =>
      split
      · next hb =>
        have hne : k ≠ a := by omega
        simp only [readCell, if_neg hne]
        rw [readCell_below rest (k + 1) a h.2 (by omega), hb]
      · simp [readCell]
    · split
      · next _ hak =>
        split
        · next hb =>
          rw [readCell_below rest (k + 1) a h.2 (by omega), hb]
        · simp [readCell]
      · next _ hak =>
        have hne : k ≠ a := fun e => hak e.symm
        simp only [readCell, if_neg hne]
        exact ih (k + 1) h.2

/-- Every other byte reads as before. -/
theorem readCell_writeCell_ne (m : List Host.Cell) (a c : Nat) (b : Byte) (hc : c ≠ a) :
    readCell (writeCell a b m) c = readCell m c := by
  have hac : a ≠ c := fun e => hc e.symm
  induction m with
  | nil =>
    simp only [writeCell]
    split
    · rfl
    · simp [readCell, hac]
  | cons x rest ih =>
    obtain ⟨k, v⟩ := x
    simp only [writeCell]
    split
    · split
      · rfl
      · simp [readCell, hac]
    · split
      · next _ hak =>
        subst hak
        split
        · simp [readCell, hac]
        · simp [readCell, hac]
      · simp only [readCell, ih]

/-! ### The canonical form -/

/-- A rising list rises from every lower bound too. -/
theorem risingFrom_mono (m : List Host.Cell) (low low' : Nat) (h : Memory.risingFrom low m = true) (hl : low' ≤ low) :
    Memory.risingFrom low' m = true := by
  cases m with
  | nil => rfl
  | cons x rest =>
    obtain ⟨k, v⟩ := x
    simp only [Memory.risingFrom, Bool.and_eq_true, decide_eq_true_eq] at h ⊢
    exact ⟨by omega, h.2⟩

/-- A write keeps the addresses rising. -/
theorem risingFrom_writeCell (m : List Host.Cell) (low a : Nat) (b : Byte) (h : Memory.risingFrom low m = true)
    (ha : low ≤ a) : Memory.risingFrom low (writeCell a b m) = true := by
  induction m generalizing low with
  | nil =>
    simp only [writeCell]
    split
    · rfl
    · simp [Memory.risingFrom, ha]
  | cons x rest ih =>
    obtain ⟨k, v⟩ := x
    simp only [Memory.risingFrom, Bool.and_eq_true, decide_eq_true_eq] at h
    simp only [writeCell]
    split
    · split
      · simp only [Memory.risingFrom, Bool.and_eq_true, decide_eq_true_eq]; exact h
      · simp only [Memory.risingFrom, Bool.and_eq_true, decide_eq_true_eq]
        exact ⟨ha, by omega, h.2⟩
    · split
      · next _ hak =>
        subst hak
        split
        · exact risingFrom_mono rest (a + 1) low h.2 (by omega)
        · simp only [Memory.risingFrom, Bool.and_eq_true, decide_eq_true_eq]; exact h
      · simp only [Memory.risingFrom, Bool.and_eq_true, decide_eq_true_eq]
        exact ⟨h.1, ih (k + 1) h.2 (by omega)⟩

/-- What holds of every cell listed and of the cell written holds of every cell after the write. -/
theorem all_writeCell (m : List Host.Cell) (a : Nat) (b : Byte) (p : Host.Cell → Bool) (h : m.all p = true)
    (hp : b ≠ 0xFF → p (a, b) = true) : (writeCell a b m).all p = true := by
  induction m with
  | nil =>
    simp only [writeCell]
    split
    · rfl
    · next hb => simp only [List.all_cons, List.all_nil, hp hb, Bool.and_self]
  | cons x rest ih =>
    obtain ⟨k, v⟩ := x
    simp only [List.all_cons, Bool.and_eq_true] at h
    simp only [writeCell]
    split
    · split
      · simpa using h
      · next hb => simpa [hp hb] using h
    · split
      · split
        · exact h.2
        · next hb => simp only [List.all_cons, hp hb, h.2, Bool.and_self]
      · simp only [List.all_cons, h.1, ih h.2, Bool.and_self]

/-- A write below address 256, outside the serial, keeps the canonical form. -/
theorem writeCell_wf (m : List Host.Cell) (a : Nat) (b : Byte) (h : Memory.wf m = true) (ha : a < 256)
    (hs : isSerialAddress a = false) : Memory.wf (writeCell a b m) = true := by
  simp only [Memory.wf, Bool.and_eq_true] at h ⊢
  refine ⟨risingFrom_writeCell m 0 a b h.1 (Nat.zero_le a), all_writeCell m a b _ h.2 fun hb => ?_⟩
  simp only [ha, hs, decide_true, Bool.not_false, Bool.and_true, Bool.true_and, decide_eq_true_eq]
  exact hb

/-- A byte of a page written keeps the canonical form, a serial byte by changing nothing (R178). -/
theorem writeRecordByte_wf (m : List Host.Cell) (a : Nat) (b : Byte) (h : Memory.wf m = true) (ha : a < 256) :
    Memory.wf (writeRecordByte m a b) = true := by
  unfold writeRecordByte
  split
  · exact h
  · next hs => exact writeCell_wf m a b h ha (by simpa using hs)

/-- Bytes written to consecutive addresses below 256 keep the canonical form. -/
theorem writeRecord_wf (bs : List Byte) : ∀ (m : List Host.Cell) (a : Nat), Memory.wf m = true → a + bs.length ≤ 256 →
    Memory.wf (writeRecord m a bs) = true := by
  induction bs with
  | nil => intro m a h _; exact h
  | cons b rest ih =>
    intro m a h ha
    simp only [List.length_cons] at ha
    exact ih _ (a + 1) (writeRecordByte_wf m a b h (by omega)) (by omega)

/-- A part from the factory has nothing listed, which is the canonical form. -/
theorem reset_store_wf : Memory.wf State.reset.store = true := by
  decide

/-! ### Pages -/

/-- A byte written over a canonical record is read back at its own address, unless it is a byte of the serial. -/
theorem readCell_writeRecordByte (m : List Host.Cell) (a c : Nat) (b : Byte) (h : Memory.wf m = true) :
    readCell (writeRecordByte m a b) c = if c = a ∧ isSerialAddress a = false then b else readCell m c := by
  simp only [Memory.wf, Bool.and_eq_true] at h
  unfold writeRecordByte
  by_cases hs : isSerialAddress a = true
  · simp [hs]
  · have hs' : isSerialAddress a = false := by simpa using hs
    by_cases hc : c = a
    · subst hc; simp [hs', readCell_writeCell_self m 0 c b h.1]
    · simp [hs', hc, readCell_writeCell_ne m a c b hc]

end Sys2Proof.Machine
end

