-- ==== Sys2Proof/Laws/Notes.lean ====
section
/-! SUPPORT. What sending a MATCH-NOTE or a FEED-NOTE does, and when each is due of its next time (R119, R120, R168). -/

namespace Sys2Proof.Machine

variable (s : State)

/-- The FEED-NOTE of the next note time is due (R168, R174). -/
theorem State.feedNoteDue_iff : s.feedNoteDue = true ↔ FeedNoteDue s := by
  simp only [State.feedNoteDue, FeedNoteDue, State.reached, Bool.or_eq_true, Option.any_eq_true,
    decide_eq_true_eq]
  exact Or.comm

/-- The MATCH-NOTE of the next match time is due (R120, R126). -/
theorem State.matchNoteDue_iff :
    s.matchNoteDue = true ↔
      (s.colour.noteOwed = true ∨ ∃ n, s.colour.nextMatch = some n ∧ n ≤ s.clock.thirds / 3000) := by
  simp only [State.matchNoteDue, State.reached, Bool.or_eq_true, Option.any_eq_true, decide_eq_true_eq]
  exact Or.comm

/-- A placement that is one of another state's outbox, ports and wait (R18). -/
theorem NotePlaced.congr {s s' t t' : State} {c : FrameClass} {dest : Byte} {payload : List Byte}
    (h : NotePlaced s t c dest payload) (outbox : s'.outbox = s.outbox) (ports : s'.ports = s.ports)
    (wait : s'.longestWait = s.longestWait) (clock : s'.clock = s.clock) (outbox' : t'.outbox = t.outbox)
    (ports' : t'.ports = t.ports) (wait' : t'.longestWait = t.longestWait) : NotePlaced s' t' c dest payload := by
  unfold NotePlaced at *
  rw [outbox, ports, wait, clock, outbox', ports', wait']
  exact h

/-- The feed after a FEED-NOTE's placement: a note freed at once is what bridge enable waited for (R18, R173). -/
theorem State.place_feedNote_feed (dest : Byte) (payload : List Byte) :
    (s.place .feedNote dest payload).feed =
      if s.ports.a.up = false ∧ s.ports.b.up = false ∧ s.feed.enabling = .waiting then { s.feed with enabling := .due }
      else s.feed := by
  by_cases h : s.ports.a.up = true ∨ s.ports.b.up = true
  · rw [s.place_eq _ dest payload (.inl (s.portsUp_ne_noPort h)),
      if_neg (by rintro ⟨a, b, -⟩; simp [a, b] at h)]
    rfl
  · simp only [not_or, Bool.not_eq_true] at h
    rw [s.place_freed _ dest payload (by simp [State.portsUp, noPort, bothPorts, h]) (by decide)]
    simp only [h.1, h.2, true_and]
    change Feed.slotFreed s.feed = _
    unfold Feed.slotFreed
    cases s.feed.enabling <;> simp

/-- What a placement of a class other than BEACON can change (R18, R20, R173). -/
theorem State.place_frame' (c : FrameClass) (dest : Byte) (payload : List Byte) (hc : c ≠ .beacon) :
    s.place c dest payload =
      { s with
        outbox := (s.place c dest payload).outbox, ports := (s.place c dest payload).ports,
        longestWait := (s.place c dest payload).longestWait,
        feed := if c = .feedNote then (s.place c dest payload).feed else s.feed } := by
  by_cases h : s.portsUp = noPort
  · rw [s.place_freed c dest payload h hc]
    cases c <;> first | contradiction | rfl
  · rw [s.place_eq c dest payload (.inl h)]
    split <;> rfl

/-- All that sending a MATCH-NOTE does (R119). -/
theorem State.sendMatchNote_spec (owed : Bool) :
    let t := s.sendMatchNote owed
    t.colour =
        { s.colour with
          lastAnnounced := some s.announcement,
          nextMatch := some (s.clock.thirds / 3000 + 2 * s.settings.beaconInterval), noteOwed := owed } ∧
      NotePlaced s t .matchNote toAll (buildMatchNote s.announcement) ∧
      t.stats = (s.tallyColour fun k => { k with matchNotesPlaced := sat k.matchNotesPlaced }).stats ∧
      t = { s with
        colour := t.colour, outbox := t.outbox, ports := t.ports, longestWait := t.longestWait, stats := t.stats } := by
  intro t
  let s1 := s.withColour
    { s.colour with
      lastAnnounced := some s.announcement,
      nextMatch := some (s.clock.thirds / 3000 + 2 * s.settings.beaconInterval), noteOwed := owed }
  have ht : t = (s1.place .matchNote toAll (buildMatchNote s.announcement)).tallyColour
    fun k => { k with matchNotesPlaced := sat k.matchNotesPlaced } := rfl
  have frame := s1.place_frame' .matchNote toAll (buildMatchNote s.announcement) (by decide)
  have placed := s1.place_notePlaced .matchNote toAll (buildMatchNote s.announcement) (by decide)
  rw [ht]
  generalize s1.place .matchNote toAll (buildMatchNote s.announcement) = x at *
  rw [frame]
  exact ⟨rfl, placed.congr rfl rfl rfl rfl rfl rfl rfl, rfl, rfl⟩

/-- All that sending a FEED-NOTE does on a shared circuit (R168, R173). -/
theorem State.sendFeedNote_spec (owed : Bool) (h : s.settings.circuit ≠ 0) :
    let t := s.sendFeedNote owed
    t.feed =
        { s.feed with
          nextNote := some (s.clock.thirds / 3000 + s.settings.noteInterval), noteOwed := owed,
          enabling :=
            if s.ports.a.up = false ∧ s.ports.b.up = false ∧ s.feed.enabling = .waiting then .due
            else s.feed.enabling } ∧
      NotePlaced s t .feedNote toAll s.feedNotePayload ∧
      t.stats = (s.tallyFeed fun k => { k with notesPlaced := sat k.notesPlaced }).stats ∧
      t = { s with
        feed := t.feed, outbox := t.outbox, ports := t.ports, longestWait := t.longestWait, stats := t.stats } := by
  intro t
  let s1 := s.withFeed
    { s.feed with
      nextNote := some (s.clock.thirds / 3000 + s.settings.noteInterval), noteOwed := owed }
  have ht : t = (s1.place .feedNote toAll s.feedNotePayload).tallyFeed
      fun k => { k with notesPlaced := sat k.notesPlaced } := by
    change s.sendFeedNote owed = _
    rw [State.sendFeedNote, if_neg h]
    rfl
  have frame := s1.place_frame' .feedNote toAll s.feedNotePayload (by decide)
  have feed := s1.place_feedNote_feed toAll s.feedNotePayload
  have placed := s1.place_notePlaced .feedNote toAll s.feedNotePayload (by decide)
  rw [ht]
  generalize s1.place .feedNote toAll s.feedNotePayload = x at *
  rw [frame]
  refine ⟨?_, placed.congr rfl rfl rfl rfl rfl rfl rfl, rfl, rfl⟩
  change x.feed = _
  rw [feed]
  change (if s.ports.a.up = false ∧ s.ports.b.up = false ∧ s.feed.enabling = .waiting then _ else _) = _
  split <;> rfl

/-- On circuit 0 no FEED-NOTE is sent (R168). -/
theorem State.sendFeedNote_unshared (owed : Bool) (h : s.settings.circuit = 0) : s.sendFeedNote owed = s := by
  rw [State.sendFeedNote, if_pos h]

end Sys2Proof.Machine
end

