-- ==== Sys2Proof/Laws/Readings.lean ====
section
/-! SUPPORT. The values of lanes and what consumers read of them (R68, R69), and the bits of a transmission (R1). -/

namespace Sys2Proof.Machine

/-! ### Values (R68) -/

theorem LevelLane.value_of_hold {l : LevelLane} (h : l.timing.state = .hold) (t : Int) : l.value t = l.target := by
  simp [LevelLane.value, levelAt, h]

theorem LevelLane.value_of_wait {l : LevelLane} {c : WaitCause} (h : l.timing.state = .wait c) (t : Int) :
    l.value t = l.start := by
  simp [LevelLane.value, levelAt, h]

theorem PosLanes.value_of_hold {l : PosLanes} (h : l.timing.state = .hold) (x : Axis) (t : Int) :
    l.value x t = l.target.get x := by
  simp [PosLanes.value, h]

theorem PosLanes.value_of_wait {l : PosLanes} {c : WaitCause} (h : l.timing.state = .wait c) (x : Axis) (t : Int) :
    l.value x t = l.start.get x := by
  simp [PosLanes.value, h]

/-- A colour lane is a level lane. -/
theorem ColourLanes.value_eq (l : ColourLanes) (e : Emitter) (t : Int) :
    l.value e t = LevelLane.value { timing := l.timing, start := l.start.get e, target := l.target.get e } t := rfl

/-! ### Ticks (R69) -/

theorem State.tickTiming_of_not_due {s : State} {t : Timing} (h : s.laneDue t = false) : s.tickTiming t = t := by
  simp [State.tickTiming, h]

/-- A timing that has been moved by its tick is due no more. -/
theorem State.laneDue_tickTiming (s : State) (t : Timing) : s.laneDue (s.tickTiming t) = false := by
  unfold State.tickTiming
  split
  · cases h : s.tickReached t.endTick <;> simp [State.laneDue, h]
  · simpa using ‹¬ s.laneDue t = true›

@[simp] theorem State.tickTiming_idem (s : State) (t : Timing) : s.tickTiming (s.tickTiming t) = s.tickTiming t :=
  State.tickTiming_of_not_due (s.laneDue_tickTiming t)

@[simp] theorem State.tickPos_idem (s : State) (l : PosLanes) : s.tickPos (s.tickPos l) = s.tickPos l := by
  simp only [State.tickPos, State.tickTiming_idem]
  split <;> rfl

@[simp] theorem State.tickLevel_idem (s : State) (l : LevelLane) : s.tickLevel (s.tickLevel l) = s.tickLevel l := by
  simp only [State.tickLevel, State.tickTiming_idem]
  split <;> rfl

@[simp] theorem State.tickColour_idem (s : State) (l : ColourLanes) : s.tickColour (s.tickColour l) = s.tickColour l := by
  simp only [State.tickColour, State.tickTiming_idem]
  split <;> rfl

/-- Where the lane's tick is not due, INTENSITY is read as its value: in HOLD, with the start value the target or not. -/
theorem State.intensityAt_of_not_due {s : State} (h : s.laneDue s.play.intensity.timing = false) (b : Int) :
    s.intensityAt b = s.play.intensity.value b := by
  simp only [State.intensityAt, State.tickLevel, State.tickTiming_of_not_due h]
  split
  · rename_i hold
    simp [LevelLane.value, levelAt, hold]
  · rfl

/-- Where the lane's tick is not due, a colour lane is read as its value. -/
theorem State.colourAt_of_not_due {s : State} (h : s.laneDue s.play.colour.timing = false) (e : Emitter) (b : Int) :
    s.colourAt e b = s.play.colour.value e b := by
  simp only [State.colourAt, State.tickColour, State.tickTiming_of_not_due h]
  split
  · rename_i hold
    simp [ColourLanes.value, levelAt, hold]
  · rfl

/-- Where the lane's tick is not due, PAN or TILT is read as its value. -/
theorem State.positionAt_of_not_due {s : State} (h : s.laneDue s.play.pos.timing = false) (x : Axis) (b : Int) :
    s.positionAt x b = s.play.pos.value x b := by
  simp only [State.positionAt, State.tickPos, State.tickTiming_of_not_due h]
  split
  · rename_i hold
    simp [PosLanes.value, hold]
  · rfl

/-! ### The bits of a transmission (R1) -/

/-- After its last character a transmission leaves its line idle. -/
theorem Transmission.bitAt_ended {t : Transmission} {now : Nat} (h : t.endsAt ≤ now) : t.bitAt now = .idle := by
  have : t.bytes.length ≤ (now - t.started) / 10 := by
    simp only [Transmission.endsAt] at h
    omega
  simp [Transmission.bitAt, List.getElem?_eq_none this]

/-- One of its characters begins with a start bit. -/
theorem Transmission.bitAt_start {t : Transmission} {k : Nat} {c : Byte} (hc : t.bytes[k]? = some c) :
    t.bitAt (t.started + 10 * k) = .start := by
  have hk : (t.started + 10 * k - t.started) / 10 = k := by omega
  have hm : (t.started + 10 * k - t.started) % 10 = 0 := by omega
  simp only [Transmission.bitAt, hk, hm, hc]

/-- Its data bits follow, the least significant first. -/
theorem Transmission.bitAt_data {t : Transmission} {k i : Nat} {c : Byte} (hc : t.bytes[k]? = some c) (hi : i < 8) :
    t.bitAt (t.started + 10 * k + 1 + i) = .data (c.getLsbD i) := by
  have hk : (t.started + 10 * k + 1 + i - t.started) / 10 = k := by omega
  have hm : (t.started + 10 * k + 1 + i - t.started) % 10 = i + 1 := by omega
  simp only [Transmission.bitAt, hk, hm, hc]
  split
  · omega
  · omega
  · rename_i h; rw [Nat.succ.inj h]

/-- It ends with a stop bit. -/
theorem Transmission.bitAt_stop {t : Transmission} {k : Nat} {c : Byte} (hc : t.bytes[k]? = some c) :
    t.bitAt (t.started + 10 * k + 9) = .stop := by
  have hk : (t.started + 10 * k + 9 - t.started) / 10 = k := by omega
  have hm : (t.started + 10 * k + 9 - t.started) % 10 = 9 := by omega
  simp only [Transmission.bitAt, hk, hm, hc]

end Sys2Proof.Machine
end

