-- ==== Sys2Proof/Laws/Steps.lean ====
section
/-! SUPPORT. What a step comes down to: the command it runs, and the consumer of a closed frame. A property kept by every
command and by the passing of time is kept by every step. -/

namespace Sys2Proof.Machine

/-- A frame handed on by a close is the command of its kind (R10). -/
theorem exec_commandOf (k : FrameKind) (f : Frame) (s : State) :
    exec (commandOf k f) s = .next (s.consume (some k) f) := by
  cases k <;> rfl

/-- What a step can be: the front command on the queue's rest; on an empty queue nothing while the reset line is held, the
block's own next command, or a third of a µs (logs 1, 2 and 29). -/
theorem step_cases (s : State) :
    (∃ c rest, s.pending = c :: rest ∧ step s = exec c { s with pending := rest }) ∨
      (s.pending = [] ∧ s.pins.resetHeld = true ∧ step s = .next s) ∨
      (s.pending = [] ∧ s.pins.resetHeld = false ∧ ∃ c, s.dueCommand = some c ∧ step s = exec c s) ∨
      (s.pending = [] ∧ s.pins.resetHeld = false ∧ s.dueCommand = none ∧ step s = .next s.passTime) := by
  unfold step
  cases hp : s.pending with
  | cons c rest => exact .inl ⟨c, rest, rfl, rfl⟩
  | nil =>
    right
    simp only [State.idleStep]
    cases hr : s.pins.resetHeld with
    | true => exact .inl ⟨trivial, rfl, rfl⟩
    | false =>
      cases hd : s.dueCommand with
      | some c => exact .inr (.inl ⟨trivial, rfl, c, rfl, rfl⟩)
      | none => exact .inr (.inr ⟨trivial, rfl, rfl, rfl⟩)

/-- A property that does not read the queue, kept by every command and by the passing of time, is kept by every step. -/
theorem keptByStep_of {p : State → Prop} (queue : ∀ s rest, p s → p { s with pending := rest })
    (time : ∀ s, p s → p s.passTime) (commands : ∀ c s, p s → Ensures (exec c s) p) : KeptByStep p := by
  intro s hs t ht
  rcases step_cases s with ⟨c, rest, -, h⟩ | ⟨-, -, h⟩ | ⟨-, -, c, -, h⟩ | ⟨-, -, -, h⟩
  · exact commands c _ (queue s rest hs) t (h ▸ ht)
  · rw [h] at ht; cases ht; exact hs
  · exact commands c s hs t (h ▸ ht)
  · rw [h] at ht; cases ht; exact time s hs

/-- What handing a frame on keeps: a property kept by a counter of a port, and by the consumer of an accepted frame of the
right size (R9, R10). -/
theorem handOn_keeps {p : State → Prop} {s : State} {k : FrameKind} {f : Frame} {g : State → State} (hs : p s)
    (tally : ∀ s q h, p s → p (s.tallyPort q h))
    (taken : s.accepts k f = true → k.sizeOk f.payload = true → p (s.heard f) → p (g (s.heard f))) :
    p (s.handOn k f g) := by
  rcases handOn_cases (s := s) (k := k) (f := f) (g := g) with h | h | ⟨ha, hk, h⟩
  · rw [h]; exact hs
  · rw [h]; exact tally _ _ _ hs
  · rw [h]; exact taken ha hk (tally _ _ _ hs)

/-- What the close of a frame keeps: a property kept by what happens before a frame is consumed, and by the consumer of
every kind (R2, R7 to R10). -/
theorem closeFrame_keeps {p : State → Prop} {s : State} {q : Port} (hs : p s)
    (reset : ∀ s, p s → p (s.resetAsm q)) (discard : ∀ s, p s → p (s.discardFrame q))
    (up : ∀ s, p s → p (s.portComesUp q)) (echo : ∀ s, p s → p (s.ownEcho q))
    (settle : ∀ s a, p s → p (s.settleCopy q a)) (consume : ∀ s k f, p s → p (s.consume (some k) f)) :
    p (s.closeFrame q) := by
  simp only [State.closeFrame]
  split
  · split
    · exact echo _ (up _ (reset _ hs))
    · cases kindOfCode _ with
      | none => exact settle _ _ (up _ (reset _ hs))
      | some k => exact consume _ k _ (settle _ _ (up _ (reset _ hs)))
  · exact discard _ (reset _ hs)

/-- A command that neither carries a frame nor closes one. -/
def isOwnStep (c : Instr) : Prop :=
  (∀ k f, c ≠ commandOf k f) ∧ ∀ q, c ≠ .frameClose q

/-- A property kept by the consumer of every kind, by what the close of a frame does besides, and by every other command
is kept by every command. -/
theorem commands_keep {p : State → Prop} (consume : ∀ k f s, p s → p (s.consume (some k) f))
    (reset : ∀ q s, p s → p (s.resetAsm q)) (discard : ∀ q s, p s → p (s.discardFrame q))
    (up : ∀ q s, p s → p (s.portComesUp q)) (echo : ∀ q s, p s → p (s.ownEcho q))
    (settle : ∀ q a s, p s → p (s.settleCopy q a)) (other : ∀ c s, isOwnStep c → p s → Ensures (exec c s) p) :
    ∀ c s, p s → Ensures (exec c s) p := by
  intro c s hs
  by_cases h : isOwnStep c
  · exact other c s h hs
  · rw [isOwnStep, Classical.not_and_iff_not_or_not] at h
    rcases h with h | h
    · simp only [Classical.not_forall, Classical.not_not] at h
      obtain ⟨k, f, rfl⟩ := h
      intro t ht
      rw [exec_commandOf] at ht
      cases ht
      exact consume k f s hs
    · simp only [Classical.not_forall, Classical.not_not] at h
      obtain ⟨q, rfl⟩ := h
      intro t ht
      simp only [exec, execFrameClose] at ht
      cases ht
      split
      · exact closeFrame_keeps hs (fun s => reset q s) (fun s => discard q s) (fun s => up q s) (fun s => echo q s)
          (fun s a => settle q a s) fun s k f => consume k f s
      · exact hs

end Sys2Proof.Machine
end

