-- ==== Sys2Proof/Tests/Slice0.lean ====
section
/-! SUPPORT. Tests of the model on small states: the checks of WellFormed, one or two steps of each command with results
taken from the spec's examples or worked by hand from its rules, and a state that meets the hypotheses of each
statement. -/

namespace Sys2Proof.Tests

-- one theorem at a time: elaborated side by side, the checks below all wait on the kernel at once
set_option Elab.async false

open Machine

/-! ### Sample states and frames -/

/-- The next state an outcome answers. -/
def answered (o : Host.Outcome State Fault Refusal) : State :=
  match o with
  | .next t => t
  | .fault _ => State.reset
  | .refused _ => State.reset

/-- Station 40, configured, in groups 1 and 2, with both ports UP and its axes as after a reset. -/
def running : State :=
  { State.reset with
    settings := { Settings.default with station := 40, groups := 3 },
    setup := { State.reset.setup with readDone := true, configured := true },
    ports := bothPorts { PortState.initial with up := true } }

/-- A state at an uptime. -/
def atUptime (ms : Nat) (s : State) : State :=
  { s with clock := { s.clock with thirds := 3000 * ms } }

/-- A state whose clock is LOCKED in epoch 7 at a show ms count. -/
def atShow (ms : Nat) (s : State) : State :=
  { s with clock := { s.clock with mode := .locked, epoch := 7, ms := ms } }

/-- A state with a boundary that its consumers have not yet taken. -/
def atBoundary (b : Int) (s : State) : State :=
  { s with marks := Marks.initial.mark s.clock.epoch b }

/-- A frame to all, heard on port A two hops away. -/
def heardFrom (origin : Byte) (payload : List Byte) : Frame :=
  { port := .a, origin := origin, dest := 255, groups := 0, hops := 2, payload := payload, ended := 0 }

/-- A CUE-LOAD's payload: number, flags, position fields, then zeros. -/
def loadOf (number : Nat) (flags : Byte) (pan tilt : Nat) (group : Byte) : List Byte :=
  beBytes 2 number ++ [flags] ++ beBytes 2 pan ++ beBytes 2 tilt ++ [0, 0, group] ++ List.replicate 21 0

/-- A CUE-GO's or CUE-RELEASE's payload. -/
def tickOf (value tick : Nat) : List Byte :=
  beBytes 2 value ++ beBytes 4 tick

/-- A MOVE-NOTE's payload. -/
def noteOf (group : Byte) (cue tick ends : Nat) : List Byte :=
  [group] ++ beBytes 2 cue ++ beBytes 4 tick ++ beBytes 4 ends

/-- A BEACON's payload of a fixture. -/
def beaconOf (mode : Byte) (epoch ms us correction : Nat) (interval : Byte) : List Byte :=
  [1, mode] ++ beBytes 2 epoch ++ beBytes 4 ms ++ beBytes 2 us ++ beBytes 3 correction ++ [interval]

/-- A state with one axis changed. -/
def withPan (f : AxisState → AxisState) (s : State) : State :=
  { s with axes := { s.axes with pan := f s.axes.pan } }

/-- The pan lane holding a value. -/
def panAt (v : Int) (s : State) : State :=
  { s with play := { s.play with pos := { s.play.pos with target := { s.play.pos.target with pan := v } } } }

/-- The cue list of a state replaced. -/
def withCueList (cs : List Cue) (s : State) : State :=
  { s with cues := { s.cues with cues := cs } }

/-- A cue without parts. -/
def bare (n : Nat) : Cue :=
  { number := n, pos := none, col := none, int := none, delay := 0, follow := none }

/-- Cue 5.0 of the worked example of 05_playback_and_lanes.md. -/
def cueFive : Cue :=
  { bare 50 with
    pos := some { target := { pan := 27000, tilt := 13500 }, moveMs := 400, moveGroup := 0, dark := false },
    col := some { levels := { red := 1000, green := 500, blue := 200, white := 0 }, ms := 1000 },
    int := some { level := 800, ms := 1000 } }

/-- Cue 6.0 of that example. -/
def cueSix : Cue :=
  { bare 60 with int := some { level := 200, ms := 400 }, delay := 200, follow := some 2000 }

/-- Cue 7.0 of that example. -/
def cueSeven : Cue :=
  { bare 70 with col := some { levels := { red := 0, green := 0, blue := 1000, white := 0 }, ms := 0 } }

/-- Cue 1.0 of the worked example of 06_move_planning_and_group_arrival.md. -/
def cueOne : Cue :=
  { bare 10 with
    pos := some { target := { pan := 27000, tilt := 13500 }, moveMs := 2000, moveGroup := 3, dark := false } }

/-! ### WellFormed -/

theorem test_wf_payload_of_49_refused : (Instr.cueGo (heardFrom 7 (List.replicate 49 0))).wf = false := by decide

theorem test_wf_payload_of_48_taken : (Instr.cueGo (heardFrom 7 (List.replicate 48 0))).wf = true := by decide

theorem test_wf_origin_0_refused : (Instr.beacon (heardFrom 0 [])).wf = false := by decide

theorem test_wf_origin_251_refused : (Instr.beacon (heardFrom 251 [])).wf = false := by decide

theorem test_wf_station_0_refused : (Instr.peerAgeOut 0).wf = false := by decide

theorem test_wf_station_251_refused : (Instr.matchPartLapse 251).wf = false := by decide

theorem test_wf_station_250_taken : (Instr.feedPartLapse 250).wf = true := by decide

/-- The table gives no word any bits, so no word spells a command (log 8). -/
theorem test_no_word_spells_a_command : decodeTableWord 0 0 = none ∧ decodeTableWord 16 0xFFFF = none := by decide

/-! ### The link -/

/-- R3: "Over the nine ASCII characters of the digits 1 to 9 the check is 0x29B1." -/
theorem test_crc_of_digits : crc [0x31, 0x32, 0x33, 0x34, 0x35, 0x36, 0x37, 0x38, 0x39] = 0x29B1 := by
  decide +kernel

/-- Port A in the middle of a frame, and port B free. -/
def hearing (state : AsmState) (bytes : List Byte) (s : State) : State :=
  { s with
    ports := { s.ports with
      a := { s.ports.a with asm := { s.ports.a.asm with state := state, bytes := bytes, count := bytes.length } } } }

/-- The BEACON of station 17 as station 18 receives it, to its last character (01_the_truss_link.md, section 1.7). -/
def beaconOf17 : List Byte :=
  sealFrame ([0x01, 17, 255, 0, 0, 14] ++ beaconOf 2 7 5000120 300 0 10)

/-- R11, R13: at the header point with room for 23 bytes a copy of the seven header bytes is opened. -/
theorem test_character_opens_copy :
    (answered (exec (.characterReceived .a 14 true) (hearing .header (beaconOf17.take 6) running))).ports.b.fifo.copy
      = some (beaconOf17.take 7) := by decide +kernel

/-- R13: 470 bytes held leave 42 free, so a frame of 57 is not copied and relay full goes up on the receiving port. -/
theorem test_character_relay_full :
    let held := List.replicate 470 (0 : Byte)
    let s := hearing .header [0xC5, 0x05, 17, 255, 0, 0] running
    let s := { s with ports := { s.ports with b := { s.ports.b with fifo :=
      { s.ports.b.fifo with committed := [{ bytes := held, ended := 0 }] } } } }
    let t := answered (exec (.characterReceived .a 48 true) s)
    t.ports.b.fifo.copy = none ∧ t.stats.ports.a.relayFull = 1 := by decide +kernel

/-- R2, R14, R39: the BEACON closes 20 thirds of a µs after its last stop bit, its copy is committed, and the clock adopts
its higher epoch. -/
theorem test_frame_close_commits_and_adopts :
    let s := hearing .body beaconOf17 (atUptime 2 running)
    let s := { s with ports := { s.ports with
      a := { s.ports.a with up := false, asm := { s.ports.a.asm with lastEnd := 5980 } },
      b := { s.ports.b with fifo := { s.ports.b.fifo with copy := some beaconOf17 } } } }
    let t := answered (exec (.frameClose .a) s)
    t.ports.a.up = true ∧ t.ports.b.fifo.committed.length = 1 ∧ t.clock.epoch = 7 ∧ t.clock.ms = 5000120 := by
  decide +kernel

/-- R7: a frame with a framing error is discarded and counted, and its copy is rolled back. -/
theorem test_frame_close_discards :
    let s := hearing .body beaconOf17 (atUptime 2 running)
    let s := { s with ports := { s.ports with
      a := { s.ports.a with asm := { s.ports.a.asm with framingError := true } },
      b := { s.ports.b with fifo := { s.ports.b.fifo with copy := some beaconOf17 } } } }
    let t := answered (exec (.frameClose .a) s)
    t.ports.b.fifo = RelayFifo.initial ∧ t.stats.ports.a.checkFailures = 1 := by decide +kernel

/-- R2: a start bit 19 thirds of a µs after the last stop bit leaves the frame open, and one after 20 does not. -/
theorem test_start_bit_holds_frame_open :
    let at' := fun (start : Nat) =>
      let s := hearing .body beaconOf17 (atUptime 3 running)
      { s with
        ports := { s.ports with a := { s.ports.a with asm := { s.ports.a.asm with lastEnd := 5980 } } },
        pins := { s.pins with startBit := { s.pins.startBit with a := some start } } }
    (answered (exec (.frameClose .a) (at' 5999))).ports.a.asm.count = 23 ∧
      (answered (exec (.frameClose .a) (at' 6000))).ports.a.asm.count = 0 := by decide +kernel

/-- R4, R5: 250 ms after the last character the port goes DOWN and its FIFO is flushed. -/
theorem test_silence_flushes :
    let s := atUptime 250 running
    let s := { s with ports := { s.ports with a := { s.ports.a with fifo :=
      { s.ports.a.fifo with committed := [{ bytes := [0xC5], ended := 0 }] } } } }
    let t := answered (exec (.portSilenceTimeout .a) s)
    t.ports.a.up = false ∧ t.ports.a.fifo.committed = [] ∧ t.stats.ports.a.relayFlushed = 1 := by decide

/-- R5: a millisecond earlier it does not. -/
theorem test_silence_waits :
    (answered (exec (.portSilenceTimeout .a) (atUptime 249 running))).ports.a.up = true := by decide

/-- R15: the relayed BEACON of section 1.7 waits 6.67 µs and leaves with hops 1 and correction 0 + 6 + 77 = 83. -/
theorem test_relay_edit :
    let out := relayEdit { bytes := beaconOf17, ended := 230 } 250
    out.getD 5 0 = 1 ∧ fieldAt out 17 3 = 83 ∧ out.length = 23 := by decide +kernel

/-- An outbox entry of port A alone. -/
def waitingOnA (entryTime : Nat) : Entry :=
  { dest := 255, payload := [0], entryTime := entryTime, waited := { a := true, b := false },
    send := { a := true, b := false }, sent := noPort }

/-- The outbox of the example of section 1.7: FEED-NOTE throttled until 1005, MATCH-NOTE and STATUS-REPLY not. -/
def outboxExample : State :=
  { atUptime 1000 running with
    outbox := { Outbox.initial with
      feedNote := { entry := some (waitingOnA 998), lastFreed := some 995 },
      matchNote := { entry := some (waitingOnA 997), lastFreed := some 960 },
      statusReply := { entry := some (waitingOnA 999), lastFreed := none } } }

/-- R19: the arbiter skips the throttled FEED-NOTE and takes MATCH-NOTE. -/
theorem test_choice_point_takes_match_note :
    ((answered (exec (.choicePoint .a) outboxExample)).ports.a.tx.current.map fun t => t.source)
      = some (.own .matchNote true) := by decide +kernel

/-- R16: relayed frames go first while no own entry has waited 2 ms. -/
theorem test_choice_point_relays :
    let s := { atUptime 998 outboxExample with ports := { running.ports with a := { running.ports.a with fifo :=
      { readPtr := 0, committed := [{ bytes := [0xC5], ended := 0 }], copy := none } } } }
    ((answered (exec (.choicePoint .a) s)).ports.a.tx.current.map fun t => t.source) = some .relayed := by decide +kernel

/-- Port A sending, from an instant. -/
def sending (source : TxSource) (bytes : List Byte) (started : Nat) (s : State) : State :=
  { s with
    ports := { s.ports with
      a := { s.ports.a with tx := { s.ports.a.tx with
        current := some { source := source, bytes := bytes, started := started } } } } }

/-- R16: the read pointer moves past the CUE-GO of 15 bytes as its transmission ends. -/
theorem test_relayed_frame_sent :
    let s := sending .relayed (List.replicate 15 0) 0 (atUptime 1 running)
    let s := { s with ports := { s.ports with a := { s.ports.a with fifo :=
      { readPtr := 0, committed := [{ bytes := List.replicate 15 0, ended := 0 }], copy := none } } } }
    let t := answered (exec (.relayedFrameSent .a) s)
    t.ports.a.fifo.readPtr = 15 ∧ t.stats.ports.a.framesRelayed = 1 := by decide

/-- R1: the bits of 0xC5, 0xFF on the line: a start bit, 1 0 1 0 0 0 1 1, a stop bit, and the next start bit at once; and an
idle line after the last character. -/
theorem test_transmit_bits :
    let s := fun thirds => { sending .relayed [0xC5, 0xFF] 100 running with clock := { running.clock with thirds := thirds } }
    ((List.range 11).map fun i => (s (100 + i)).transmitBit .a) =
      [.start, .data true, .data false, .data true, .data false, .data false, .data false, .data true, .data true, .stop,
       .start] ∧
    (s 119).transmitBit .a = .stop ∧ (s 120).transmitBit .a = .idle ∧ running.transmitBit .a = .idle := by decide

/-- R20: the MATCH-NOTE of the example is freed with a wait of 3 ms, and the class's last-freed time becomes 1000. -/
theorem test_own_frame_sent :
    let t := answered (exec (.ownFrameSent .a) (sending (.own .matchNote true) [] 0 outboxExample))
    t.outbox.matchNote = { entry := none, lastFreed := some 1000 } ∧ t.longestWait = 3 := by decide

/-- R18, R20: a replaced entry's old content frees nothing. -/
theorem test_own_frame_superseded :
    (answered (exec (.ownFrameSent .a) (sending (.own .matchNote false) [] 0 outboxExample))).outbox
      = outboxExample.outbox := by decide

/-- R10: a STATUS-REPLY is counted in frames in, and dropped. -/
theorem test_status_reply_dropped :
    (answered (exec (.statusReply (heardFrom 41 [0])) running)).stats.ports.a.framesIn = 1 := by decide

/-! ### The clock -/

/-- R41: the first beacon of the first example of 03_show_clock.md gives show time 812,400.327 ms, SEEK with count 1. -/
theorem test_beacon_adopted :
    let s := { atUptime 1500 running with clock := { (atUptime 1500 running).clock with ms := 1500, us := 0 } }
    let t := answered (exec (.beacon { heardFrom 41 (beaconOf 2 7 812400 250 0 10) with ended := 4500000 }) s)
    t.clock.epoch = 7 ∧ t.clock.ms = 812400 ∧ t.clock.us = 327 ∧ t.clock.mode = .seek ∧ t.clock.consecutive = 1 := by
  decide

/-- R37, R40, R41: a beacon taken 20 thirds of a µs after an end of reception at 3k + 1 thirds, in which the timebase has counted
7 µs: adopted, it puts show time 7 µs on from its estimate, and of the own epoch its offset is against the show time held then. -/
theorem test_elapsed_counts_the_timebase :
    let s := { running with clock := { running.clock with thirds := 4500021, ms := 1500, us := 7 } }
    let f := fun epoch => { heardFrom 41 (beaconOf 2 epoch 1500 0 0 10) with ended := 4500001 }
    (answered (exec (.beacon (f 7)) s)).clock.us = 84 ∧ (answered (exec (.beacon (f 0)) s)).clock.us = 84 ∧
      s.elapsed 4500001 = 7 ∧ s.elapsed 4500000 = 7 ∧ s.elapsed 4500002 = 7 ∧ s.elapsed 4500003 = 6 := by decide

/-- R44: the sixth beacon of the second example is the third AHEAD in a run and steps the clock by 34,990 µs. -/
theorem test_beacon_reseeks :
    let s := atShow 2000001 running
    let s := { s with clock := { s.clock with us := 200, disagreement := 2, catchUp := 9 } }
    let t := answered (exec (.beacon (heardFrom 90 (beaconOf 2 7 2000036 113 0 10))) s)
    t.clock.ms = 2000036 ∧ t.clock.us = 190 ∧ t.clock.mode = .seek ∧ t.clock.disagreement = 0 ∧ t.clock.catchUp = 0 := by
  decide

/-- R46, R50: a slew gains a microsecond, and the boundary it reaches occurs. -/
theorem test_slew_reaches_boundary :
    let s := atShow 3 (atUptime 1 running)
    let s := { s with clock := { s.clock with us := 999, catchUp := 17 } }
    let t := answered (exec .catchUpSlew s)
    t.clock.ms = 4 ∧ t.clock.us = 0 ∧ t.clock.catchUp = 16 ∧ t.marks.colour = [4] ∧ t.marks.epoch = 7 := by decide

/-- R50: a boundary that a consumer has yet to take stands before the one a slew reaches, and both are taken in turn. -/
theorem test_boundaries_wait_in_turn :
    let s := atShow 3 (atUptime 1 running)
    let s := { s with
      clock := { s.clock with us := 999, catchUp := 17 }, marks := Marks.initial.mark s.clock.epoch 0 }
    let t := answered (exec .catchUpSlew s)
    let u := answered (exec .colourBoundary t)
    t.marks.colour = [0, 4] ∧ u.marks.colour = [4] ∧ (answered (exec .colourBoundary u)).marks.colour = [] := by
  decide +kernel

/-- R47: 1000 ms after the last beacon the clock goes to HOLDOVER. -/
theorem test_holdover_entry :
    let s := atShow 0 (atUptime 601000 running)
    let t := answered (exec .holdoverEntry { s with clock := { s.clock with lastBeacon := some 600000 } })
    t.clock.mode = .holdover ∧ t.clock.holdoverEntry = some 601000 := by decide

/-- R47: 30,000 ms after that it goes to FREE. -/
theorem test_holdover_to_free :
    let s := atUptime 631000 running
    let t := answered (exec .holdoverToFree { s with clock :=
      { s.clock with mode := .holdover, holdoverEntry := some 601000 } })
    t.clock.mode = .free ∧ t.stats.clock.losses = 1 := by decide

/-- R47: SEEK falls to FREE after 1000 ms. -/
theorem test_seek_to_free :
    let s := atUptime 1000 running
    let t := answered (exec .seekToFree { s with clock :=
      { s.clock with mode := .seek, consecutive := 2, lastBeacon := some 0 } })
    t.clock.mode = .free ∧ t.clock.consecutive = 0 := by decide

/-- R49: a BEACON is placed and the next beacon time moves on by the interval. -/
theorem test_beacon_timer :
    let s := atUptime 101 running
    let t := answered (exec .beaconTimer { s with clock := { s.clock with nextBeacon := some 101 } })
    t.clock.nextBeacon = some 201 ∧ (t.outbox.beacon.entry.map fun e => e.dest) = some 255 := by decide

/-! ### Peers -/

/-- A record of the table of section 2.7. -/
def peer (station lastHeard leastHops : Nat) : PeerRecord :=
  { PeerRecord.new station lastHeard with leastHops := leastHops }

/-- A feed part of that table. -/
def claims (circuit claim : Nat) : Option FeedPart :=
  some { circuit := circuit, claim := claim, tripped := false, refreshed := 0 }

/-- R28, R33: station 42's note lowers its claim to 500, and the circuit sum to 1100. -/
theorem test_feed_note :
    let s := { atUptime 10020 running with
      peers := [{ peer 41 9980 0 with feedPart := claims 3 600 }, { peer 42 9990 1 with feedPart := claims 3 700 }] }
    let t := answered (exec (.feedNote (heardFrom 42 ([3] ++ beBytes 2 500 ++ [0]))) s)
    circuitAnswer s.peers 3 = { sum := 1300, count := 2 } ∧ circuitAnswer t.peers 3 = { sum := 1100, count := 2 } := by
  decide

/-- R30: station 61 meets a full table whose candidate, of age 250, is replaced; at age 150 it is not. -/
theorem test_full_table :
    let full := fun last => (List.range 22).map (fun i => peer (62 + i) 19990 0) ++ [peer 200 last 4, peer 201 last 6]
    let hear := fun last => answered (exec (.feedNote (heardFrom 61 [0, 0, 0, 0]))
      { atUptime 20000 running with peers := full last })
    (peerOf (hear 19750).peers 201).isNone ∧ (peerOf (hear 19750).peers 61).isSome ∧
      (hear 19850).stats.peers.tableFull = 1 := by decide +kernel

/-- R28, R34: station 42 comes back into match, and the minima are taken emitter by emitter. -/
theorem test_match_note :
    let part : MatchPart :=
      { group := 2, ceilings := { red := 19000, green := 25000, blue := 7000, white := 38000 }, outOfMatch := false,
        pulled := false, refreshed := 9980 }
    let s := { atUptime 10250 running with peers := [{ peer 41 9980 0 with matchPart := some part }, peer 42 9990 1] }
    let note : Frame := heardFrom 42
      ([2, 0] ++ beBytes 2 20000 ++ beBytes 2 24000 ++ beBytes 2 7500 ++ beBytes 2 39000)
    let t := answered (exec (.matchNote note) s)
    (matchAnswer t.peers 2).minima.green = some 24000 ∧ (matchAnswer t.peers 2).minima.white = some 38000 ∧
      (matchAnswer s.peers 2).count = 1 ∧ (matchAnswer t.peers 2).count = 2 := by decide +kernel

/-- R31: station 39's record is removed at 10,100, when its age reaches 400 ms. -/
theorem test_peer_age_out :
    (answered (exec (.peerAgeOut 39) { atUptime 10100 running with peers := [peer 39 9700 0] })).peers = [] := by decide

/-- R32: a feed part lapses after 1000 ms. -/
theorem test_feed_part_lapse :
    let s := { atUptime 1000 running with peers := [{ peer 41 990 0 with feedPart := claims 3 600 }] }
    (answered (exec (.feedPartLapse 41) s)).peers = [peer 41 990 0] := by decide

/-- R32: a match part lapses after 2000 ms. -/
theorem test_match_part_lapse :
    let part : MatchPart :=
      { group := 2, ceilings := PerEmitter.of fun _ => 9, outOfMatch := false, pulled := false, refreshed := 0 }
    let s := { atUptime 2000 running with peers := [{ peer 41 1990 0 with matchPart := some part }] }
    (answered (exec (.matchPartLapse 41) s)).peers = [peer 41 1990 0] := by decide

/-! ### Cues -/

/-- R57: step 3 of section 4.8 carries pan 60000 and group 20, stored as 54000 and 0. -/
theorem test_cue_load_clamped :
    let t := answered (exec (.cueLoad (heardFrom 12 (loadOf 20 0x21 60000 9000 20))) running)
    (t.cues.cueNumbered 20).bind (fun q => q.pos)
        = some { target := { pan := 54000, tilt := 9000 }, moveMs := 0, moveGroup := 0, dark := true } ∧
      t.stats.cues.clamped = 1 := by decide

/-- R55: step 6: cue 1.5 at a line of 2.0 is refused PROTECTED. -/
theorem test_cue_load_protected :
    (answered (exec (.cueLoad (heardFrom 12 (loadOf 15 0x04 0 0 0)))
        { running with cues := { running.cues with line := 20 } })).cues.refusal
      = some { kind := .isProtected, cue := 15, origin := 12 } := by decide

/-- R62: step 9: of 1.0, 2.0 and 2.5 only 2.5 is removed, and the lowest kept is recorded. -/
theorem test_cue_clear :
    let s := withCueList [bare 10, bare 20, bare 25, bare 30] { running with cues := { running.cues with line := 20 } }
    let t := answered (exec (.cueClear (heardFrom 12 (beBytes 2 10 ++ beBytes 2 29))) s)
    t.cues.cues = [bare 10, bare 20, bare 30] ∧ t.stats.cues.removed = 1 ∧
      t.cues.refusal = some { kind := .isProtected, cue := 10, origin := 12 } := by decide

/-- R63: step 10: the line does not go down. -/
theorem test_protect_line_down :
    let t := answered (exec (.protect (heardFrom 13 (beBytes 2 10))) { running with cues := { running.cues with line := 20 } })
    t.cues.line = 20 ∧ t.cues.refusal = some { kind := .lineDown, cue := 10, origin := 13 } := by decide

/-! ### Playback -/

/-- The state of the example of section 5.11 at a show ms count, with cues 5.0 to 7.0. -/
def playing (ms : Nat) : State :=
  let s := withCueList [cueFive, cueSix, cueSeven] (atShow ms running)
  { s with play := { s.play with pos := { s.play.pos with target := { pan := 24000, tilt := 13500 } } } }

/-- R72: a GO whose tick lies ahead waits in the pending slot. -/
theorem test_go_pends :
    (answered (exec (.cueGo (heardFrom 12 (tickOf 50 900100))) (playing 900020))).play.pendingGo
      = some { cueField := 50, tick := 900100, origin := 12 } := by decide

/-- R77: cue 6.0 late at 900,600 leaves INTENSITY waiting from 400 to 200 between 900,760 and 901,160. -/
theorem test_go_late :
    let s := playing 900600
    let s := { s with play := { s.play with intensity :=
      { timing := { state := .fade, startTick := 900100, endTick := some 901100 }, start := 0, target := 800 } } }
    let t := answered (exec (.cueGo (heardFrom 12 (tickOf 60 900560))) s)
    t.play.intensity
        = { timing := { state := .wait .delay, startTick := 900760, endTick := some 901160 }, start := 400,
            target := 200 } ∧
      t.play.follow = some { tick := 902560, source := 60 } ∧ t.stats.play.lateGos = 1 := by decide

/-- R74, R79: cue 5.0 taken from the slot plans 100 render frames, ending at 900,500. -/
theorem test_pending_go_tick :
    let s := playing 900100
    let s := { s with
      feed := { s.feed with grant := { pan := 120, tilt := 120 } },
      play := { s.play with pendingGo := some { cueField := 50, tick := 900100, origin := 12 } } }
    let t := answered (exec .pendingGoTick s)
    t.play.pos.timing = { state := .fade, startTick := 900100, endTick := some 900500 } ∧ t.play.pendingGo = none := by
  decide +kernel

/-- R98: pan at 900,140 and 900,300, the values of the table of section 5.11. -/
theorem test_profile_values :
    profile 3000 100 1 = 1 ∧ profile 3000 100 10 = 80 ∧ profile 3000 100 24 = 461 ∧ profile 3000 100 26 = 540 ∧
      profile 3000 100 90 = 2920 ∧ profile 100 7 2 = 21 ∧ profile 100 7 4 = 60 ∧ profile (-100) 7 5 = -79 := by decide

/-- R81: the follow of cue 6.0 takes cue 7.0. -/
theorem test_follow_tick :
    let s := playing 902560
    let s := { s with play := { s.play with follow := some { tick := 902560, source := 60 } } }
    let t := answered (exec .followTick s)
    t.play.lastGo = some { cueField := 70, resolved := 70, tick := 902560 } ∧ t.play.colour.target.blue = 1000 ∧
      t.play.colour.timing.state = .hold ∧ t.stats.play.followsTaken = 1 := by decide

/-- R77: a lane that a take of part time 0 sends straight to HOLD starts from its value now. -/
theorem test_follow_tick_start_value :
    let s := playing 902560
    let s := { s with play := { s.play with
      follow := some { tick := 902560, source := 60 },
      colour := { s.play.colour with target := { red := 1000, green := 500, blue := 200, white := 0 } } } }
    let t := answered (exec .followTick s)
    t.play.colour.start = { red := 1000, green := 500, blue := 200, white := 0 } ∧
      t.play.colour.target = { red := 0, green := 0, blue := 1000, white := 0 } := by decide

/-- R69: INTENSITY's DELAY wait goes to FADE at its start tick. -/
theorem test_lane_tick :
    let s := playing 900760
    let s := { s with play := { s.play with intensity :=
      { timing := { state := .wait .delay, startTick := 900760, endTick := some 901160 }, start := 400, target := 200 } } }
    (answered (exec (.laneTick .intensity) s)).play.intensity.timing.state = .fade := by decide

/-- R83, R84: the release of the example leaves INTENSITY waiting from 200 to 0 until 904,520 and pan dark for 27000. -/
theorem test_cue_release :
    let s := playing 903000
    let s := { s with play := { s.play with intensity := { s.play.intensity with target := 200, start := 200 } } }
    let t := answered (exec (.cueRelease (heardFrom 12 (tickOf 1500 903020))) s)
    t.play.intensity
        = { timing := { state := .wait .delay, startTick := 903020, endTick := some 904520 }, start := 200, target := 0 } ∧
      t.play.pos.timing = { state := .wait .dark, startTick := 903020, endTick := none } ∧
      t.play.pos.target.pan = 27000 := by decide

/-- R84, R94: a release waits with park as the setup record has it, though the soft limits end below it. -/
theorem test_cue_release_park :
    let s := playing 903000
    let s := { s with settings := { s.settings with axes := { s.settings.axes with
      pan := { s.settings.axes.pan with park := 40000, softHigh := 30000 } } } }
    let t := answered (exec (.cueRelease (heardFrom 12 (tickOf 1500 903020))) s)
    t.play.pos.target.pan = 40000 ∧ (t.plan t.play.pos.start t.play.pos.target 0 15000).target.pan = 30000 := by
  decide +kernel

/-- R82: the dark pair of the example starts at 904,520 with a plan of 64 render frames. -/
theorem test_dark_start :
    let s := atBoundary 904520 (playing 904520)
    let s := { s with play := { s.play with pos :=
      { timing := { state := .wait .dark, startTick := 903020, endTick := none }, start := { pan := 27000, tilt := 13500 },
        target := { pan := 27000, tilt := 9000 }, plan := none, moveMs := 0 } } }
    let s := { s with feed := { s.feed with grant := { pan := 120, tilt := 120 } } }
    (answered (exec .darkStart s)).play.pos.timing = { state := .fade, startTick := 904520, endTick := some 904776 } := by
  decide +kernel

/-- R85: the rebase of the second example, Δ = -898,850. -/
theorem test_rebase_shifts :
    let s := playing 900050
    let s := { s with play := { s.play with
      pendingGo := some { cueField := 80, tick := 900100, origin := 12 }, follow := some { tick := 902000, source := 60 } } }
    let t := answered (exec (.beacon (heardFrom 41 (beaconOf 2 8 1200 323 0 10))) s)
    (t.play.pendingGo.map fun g => g.tick) = some 1250 ∧ (t.play.follow.map fun g => g.tick) = some 3150 := by decide

/-! ### Group arrival -/

/-- Station 40 of the example of section 6.9, its grants the run currents. -/
def grouped (ms : Nat) : State :=
  let s := withCueList [cueOne] (atShow ms running)
  { s with
    feed := { s.feed with grant := { pan := 120, tilt := 120 } },
    play := { s.play with pos := { s.play.pos with target := { pan := 20000, tilt := 9000 } } } }

/-- R101: the pending GO of cue 1.0 opens a gather with its early note taken up. -/
theorem test_gather_opens :
    let s := grouped 1000000
    let s := { s with play := { s.play with
      early := [{ group := 3, cue := 10, goTick := 1000000, proposedEnd := 1002024, setAt := 0 }],
      pendingGo := some { cueField := 10, tick := 1000000, origin := 12 } } }
    (answered (exec .pendingGoTick s)).play.gather
      = some { group := 3, cue := 10, goTick := 1000000, closeTick := 1000024, ownPlan := 500, ownEnd := 1002024,
               groupEnd := 1002024, notes := 1 } := by decide +kernel

/-- The gather of the example, open. -/
def gatherOfThree : Gather :=
  { group := 3, cue := 10, goTick := 1000000, closeTick := 1000024, ownPlan := 500, ownEnd := 1002024,
    groupEnd := 1002024, notes := 1 }

/-- R103: the note from 41 raises the group end. -/
theorem test_move_note_raises :
    let s := grouped 1000003
    let s := { s with play := { s.play with gather := some gatherOfThree } }
    ((answered (exec (.moveNote (heardFrom 41 (noteOf 3 10 1000000 1002104))) s)).play.gather.map fun g => (g.groupEnd, g.notes))
      = some (1002104, 2) := by decide

/-- R104: the note from 50 is of another group and is kept. -/
theorem test_move_note_kept :
    let s := grouped 1000011
    let s := { s with play := { s.play with gather := some gatherOfThree } }
    (answered (exec (.moveNote (heardFrom 50 (noteOf 5 10 1000000 1001800))) s)).play.early
      = [{ group := 5, cue := 10, goTick := 1000000, proposedEnd := 1001800, setAt := 0 }] := by decide

/-- R105: the close plans 520 render frames, to 1,002,104. -/
theorem test_gather_close :
    let s := grouped 1000024
    let s := { s with play := { s.play with
      gather := some { gatherOfThree with groupEnd := 1002104 },
      pos := { timing := { state := .wait .gather, startTick := 1000024, endTick := none },
               start := { pan := 20000, tilt := 9000 }, target := { pan := 27000, tilt := 13500 }, plan := none,
               moveMs := 2000 } } }
    let t := answered (exec .gatherClose s)
    t.play.pos.timing = { state := .fade, startTick := 1000024, endTick := some 1002104 } ∧
      t.stats.plan.gathersLengthened = 1 ∧
      t.play.finished = some { group := 3, cue := 10, goTick := 1000000 } := by decide +kernel

/-- R104: an early note lapses after 250 ms. -/
theorem test_early_note_lapse :
    let s := atUptime 250 running
    let s := { s with play := { s.play with
      early := [{ group := 5, cue := 10, goTick := 0, proposedEnd := 9, setAt := 0 }] } }
    (answered (exec (.earlyNoteLapse 0) s)).play.early = [] := by decide

/-- R96: the minimum times of section 6.9. -/
theorem test_minimum_times :
    minimumTime 120 96 3000 = 52 ∧ minimumTime 120 60 3000 = 66 ∧ minimumTime 120 42 3000 = 79 ∧
      minimumTime 120 24 3000 = 104 ∧ minimumTime 120 96 7000 = 79 ∧ accelTime 96 54000 = 220 := by decide +kernel

/-- R95: the effective accelerations of section 6.9. -/
theorem test_effective_acceleration :
    let st := Settings.default.axes.pan
    effectiveAccel st 150 = 96 ∧ effectiveAccel st 80 = 60 ∧ effectiveAccel st 60 = 42 ∧ effectiveAccel st 30 = 24 := by
  decide

/-! ### Colour -/

/-- Station 40 of section 7.10 at 72 °C, its green ceiling settled. -/
def coloured : State :=
  let st := { running.settings with
    matchGroup := 2, fullOutput := { red := 20000, green := 30000, blue := 8000, white := 40000 },
    derating := [{ threshold := 45, derate := 960 }, { threshold := 60, derate := 900 }, { threshold := 75, derate := 820 }] }
  let part : MatchPart :=
    { group := 2, ceilings := { red := 19000, green := 25000, blue := 7000, white := 38000 }, outOfMatch := false,
      pulled := false, refreshed := 0 }
  let hold := { running.play.colour with target := { red := 1000, green := 500, blue := 200, white := 0 } }
  let settled := fun r => { EmitterState.initial 0 with rendered := r }
  { running with
    settings := st, peers := [{ peer 41 0 0 with matchPart := some part }],
    sense := { running.sense with emitterTemp := 72 },
    play := { running.play with colour := hold, intensity := { running.play.intensity with target := 800 } },
    colour := { running.colour with emitters :=
      { red := settled 18000, green := settled 25000, blue := settled 7000, white := settled 36000 } } }

/-- R121, R124: the duties of the table, and its dither schedules. -/
theorem test_colour_boundary :
    let t := answered (exec .colourBoundary (atBoundary 4 coloured))
    (t.colour.emitters.red.duty, t.colour.emitters.green.duty, t.colour.emitters.blue.duty) = (52429, 24273, 10194) ∧
      (t.colour.emitters.red.base, t.colour.emitters.red.frac) = (3276, 13) := by decide +kernel

/-- R114, R115: a pull of 800 that has lasted 500 ms is announced, and green's ceiling is cut to 21600. -/
theorem test_colour_boundary_announces :
    let s := atBoundary 4 (atUptime 20500 coloured)
    let s := { s with
      feed := { s.feed with pull := 800 }, colour := { s.colour with pulledSince := some 20000 } }
    let t := answered (exec .colourBoundary s)
    t.colour.announced = true ∧ t.colour.emitters.green.rendered = 21600 ∧ t.colour.emitters.green.duty = 20971 ∧
      t.stats.colour.ceilingCuts = 4 := by decide +kernel

/-- R119: the MATCH-NOTE carries the group, the flags and the four achievable outputs. -/
theorem test_next_match_time :
    let s := atUptime 300 coloured
    let s := { s with colour := { s.colour with nextMatch := some 300 } }
    let t := answered (exec .nextMatchTime s)
    t.colour.nextMatch = some 500 ∧ (t.outbox.matchNote.entry.map fun e => e.payload.take 2) = some [2, 0] := by decide

/-- R126: with the next match time due at the instant of a boundary that announces a change, two MATCH-NOTEs are placed,
whichever is taken first. -/
theorem test_match_notes_both_orders :
    let s := atBoundary 4 (atUptime 20500 coloured)
    let s := { s with
      feed := { s.feed with pull := 800 },
      colour := { s.colour with
        pulledSince := some 20000, nextMatch := some 20500, lastAnnounced := some s.announcement } }
    let first := answered (exec .nextMatchTime (answered (exec .colourBoundary s)))
    let second := answered (exec .colourBoundary (answered (exec .nextMatchTime s)))
    first.stats.colour.matchNotesPlaced = 2 ∧ second.stats.colour.matchNotesPlaced = 2 ∧
      first.colour.noteOwed = false ∧ second.colour.noteOwed = false := by decide +kernel

/-- R124, R125: the first of 13 longer periods takes 3277 counts. -/
theorem test_emitter_period :
    let s := atUptime 1 running
    let red := { s.colour.emitters.red with base := 3276, frac := 13, preload := 3277 }
    let s := { s with colour := { s.colour with emitters := { s.colour.emitters with red := red } } }
    let t := answered (exec .emitterPwmPeriod s)
    t.colour.emitters.red.running = 3277 ∧ t.colour.periodsStarted = 1 ∧ t.colour.nextPeriod = 500 := by decide

/-! ### Axes -/

/-- Pan READY at 10000 counts before a lane at 10100, with the run grant (section 8.9). -/
def following (pos16 v16 : Int) : State :=
  let s := panAt 10100 (atBoundary 4 { running with feed := { running.feed with grant := { pan := 120, tilt := 120 } } })
  withPan (fun a => { a with mode := .ready, bridgeEnable := true, pos16 := pos16, v16 := v16, output := pos16 / 16 }) s

/-- R132: boundaries 1 and 5 of the table: velocity 96 and 304, lag 94 and 21. -/
theorem test_axis_boundary_follows :
    let t1 := (answered (exec (.axisBoundary .pan) (following 160000 0))).axes.pan
    let t5 := (answered (exec (.axisBoundary .pan) (following 160960 384))).axes.pan
    (t1.v16, t1.pos16, t1.lag) = (96, 160096, some 94) ∧ (t5.v16, t5.pos16, t5.lag) = (304, 161264, some 21) := by
  decide +kernel

/-- R158: APPROACH at count -6998 with its reference at -7000 and the rise position 1200 is set to 1202. -/
theorem test_axis_boundary_sets_count :
    let s := following (16 * (-7003)) 80
    let s := { s with settings := { s.settings with axes := { s.settings.axes with
      pan := { s.settings.axes.pan with risePos := 1200 } } } }
    let s := withPan (fun a => { a with
      mode := .homing .approach, reference := some (-7000), pos16 := 16 * (-6998), output := -6998 }) s
    let t := (answered (exec (.axisBoundary .pan) s)).axes.pan
    (t.pos16, t.output, t.v16, t.mode) = (19232, 1202, 0, .homing .returning) := by decide +kernel

/-- R138: coil A at microstep 10018 and run current 120: 187 counts, negative. -/
theorem test_bridge_period :
    let s := withPan (fun a => { a with
      mode := .ready, bridgeEnable := true, output := 10018, current := some 120 }) (atUptime 1 running)
    let t := (answered (exec .bridgePwmPeriod s)).axes.pan
    t.coilA.preload = { duty := 187, negative := true } ∧ t.coilB.preload = { duty := 942, negative := true } := by
  decide +kernel

/-- R139: coil A is driven for counts 0 to 186, OFF to 206, recirculates to 1579, and is OFF to 1599. -/
theorem test_bridge_counts :
    let d : Drive := { duty := 187, negative := true }
    [switchesAt 20 d 186, switchesAt 20 d 187, switchesAt 20 d 206, switchesAt 20 d 207, switchesAt 20 d 1579,
        switchesAt 20 d 1580]
      = [.drive true, .allOpen, .allOpen, .lowClosed, .lowClosed, .allOpen] := by decide

/-- R140: the trip of a moving READY axis. -/
theorem test_overcurrent_trips :
    let t := answered (exec (.overcurrentEvent .pan .b) (following 160000 288))
    t.axes.pan.mode = .tripped ∧ t.axes.pan.v16 = 288 ∧ t.stats.axes.pan.bridgeTrips = 1 := by decide

/-- R135: the run flag of a tripped axis stands until its next boundary clears it. -/
theorem test_overcurrent_keeps_run_flag :
    let s := withPan (fun a => { a with running := true }) (following 160000 288)
    let t := answered (exec (.overcurrentEvent .pan .b) s)
    t.axes.pan.running = true ∧ (answered (exec (.axisBoundary .pan) t)).axes.pan.running = false := by decide +kernel

/-- R140: a second comparator changes nothing. -/
theorem test_overcurrent_once :
    let t := answered (exec (.overcurrentEvent .pan .b) (following 160000 288))
    (answered (exec (.overcurrentEvent .pan .a) t)).stats.axes.pan.bridgeTrips = 1 := by decide

/-- R157: a HOME-ASK naming both axes begins homing on tilt and counts one ignored for pan. -/
theorem test_home_ask :
    let s := withPan (fun a => { a with mode := .homing .seek, bridgeEnable := true }) running
    let s := { s with axes := { s.axes with tilt := { s.axes.tilt with mode := .ready, bridgeEnable := true } } }
    let t := answered (exec (.homeAsk (heardFrom 12 [3])) s)
    t.axes.tilt.mode = .homing .seek ∧ t.stats.axes.pan.homeAsksIgnored = 1 := by decide

/-! ### Sensing -/

/-- R145: raw 2800 reads 72 °C, 4095 reads 124 °C, and a raw feed current of 1000 reads 2000. -/
theorem test_sense_scan_converts :
    let t := answered (exec (.senseScan 2800 4095 1000) (atUptime 5 running))
    (t.sense.emitterTemp, t.sense.driverTemp, t.sense.feedCurrent) = (72, 124, 2000) := by decide

/-- R146, R172: the second scan above the trip level trips the feed for 1000 ms. -/
theorem test_sense_scan_trips :
    let s := atUptime 40500 running
    let s := { s with
      sense := { s.sense with tripScans := 1 }, feed := { s.feed with started := true },
      settings := { s.settings with tripLevel := 2500 } }
    (answered (exec (.senseScan 0 0 1400) s)).feed.tripEnd = some 41500 := by decide

/-- Pan passing its flag, rise 2000 and fall 2800, with a pass held (section 9.7). -/
def passing (rise output : Int) : State :=
  let s := following (16 * output) 80
  let s := { s with settings := { s.settings with axes := { s.settings.axes with
    pan := { s.settings.axes.pan with risePos := 2000, fallPos := 2800 } } } }
  withPan (fun a => { a with
    output := output, pass := some { negative := false, microstep := rise, deviation := rise - 2000 } }) s

/-- R151: pass 1 is corrected by 4 counts. -/
theorem test_index_edge_corrects :
    let t := (answered (exec (.indexEdge .pan .fall) (passing 2003 2804))).axes.pan
    (t.pos16, t.output, t.pass) = (16 * 2800, 2800, none) := by decide +kernel

/-- R150, R151: pass 2 is a vane fault, pass 3 a slip. -/
theorem test_index_edge_outcomes :
    let t2 := (answered (exec (.indexEdge .pan .fall) (passing 2001 2822))).axes.pan
    let t3 := (answered (exec (.indexEdge .pan .fall) (passing 2015 2816))).axes.pan
    (t2.capture.map fun c => c.outcome) = some .vaneFault ∧ t2.slipPending = false ∧ t3.slipPending = true := by decide

/-! ### Feed sharing -/

/-- Station 40 of section 10.8 on circuit 3, its claim 300. -/
def feeding : State :=
  let pan := { Settings.default.axes.pan with runCurrent := 120, holdCurrent := 40 }
  let tilt := { Settings.default.axes.tilt with runCurrent := 90, holdCurrent := 30 }
  let drive := fun (u : Nat) => { EmitterState.initial 0 with unpulled := u }
  { atUptime 40002 running with
    marks := Marks.initial.mark running.clock.epoch 4,
    settings := { running.settings with
      circuit := 3, limit := 2000, floorShare := 250, fullDrive := { red := 500, green := 400, blue := 200, white := 600 },
      axes := { pan := pan, tilt := tilt } },
    peers := [{ peer 41 40000 0 with feedPart := claims 3 600 }, { peer 42 40000 1 with feedPart := claims 3 700 }],
    axes := { running.axes with pan := { running.axes.pan with running := true } },
    colour := { running.colour with emitters :=
      { red := drive 52429, green := drive 24273, blue := drive 10194, white := drive 0 } },
    feed := { running.feed with started := true, claim := 300, usage := 300 } }

/-- R164, R170, R167: demand 800, allowance 700, a raise to 500 and a pull of 275. -/
theorem test_feed_boundary_raises :
    let t := (answered (exec .feedBoundary feeding)).feed
    (t.demand, t.allowance, t.claim, t.usage, t.pull) = (800, 700, 500, 300, 275) ∧
      t.settling = some { claim := 300, endTime := 40102 } := by decide +kernel

/-- R171: the raise to 500 settles at 40,102 with an allowance of 900, and the pull becomes 620. -/
theorem test_settle_end :
    let s := { feeding with
      clock := { feeding.clock with thirds := 3000 * 40102 },
      peers := [{ peer 41 40000 0 with feedPart := claims 3 600 }, { peer 42 40000 1 with feedPart := claims 3 500 }],
      feed := { feeding.feed with
        claim := 500, emitterDemand := 580, settling := some { claim := 300, endTime := 40102 } } }
    let t := (answered (exec .settleEnd s)).feed
    (t.claim, t.usage, t.allowance, t.pull, t.settling) = (500, 500, 900, 620, none) := by decide +kernel

/-- R172: a trip ends with the usage at the base of 140. -/
theorem test_trip_end :
    let s := { feeding with
      clock := { feeding.clock with thirds := 3000 * 41505 },
      feed := { feeding.feed with claim := 140, usage := 140, tripEnd := some 41505 } }
    let t := (answered (exec .tripEnd s)).feed
    (t.tripEnd, t.claim, t.usage) = (none, 140, 140) := by decide +kernel

/-- R168: the periodic note carries circuit, claim and SETTLING. -/
theorem test_next_note_time :
    let s := { feeding with feed := { feeding.feed with
      nextNote := some 40002, claim := 500, settling := some { claim := 300, endTime := 40102 } } }
    let t := answered (exec .nextNoteTime s)
    (t.outbox.feedNote.entry.map fun e => e.payload) = some [3, 1, 244, 2] ∧ t.feed.nextNote = some 40052 := by decide

/-- R174: a raise that settles at the next note time places its note beside the periodic one, whichever is taken first. -/
theorem test_feed_notes_both_orders :
    let s := { feeding with feed := { feeding.feed with
      nextNote := some 40002, claim := 500, settling := some { claim := 300, endTime := 40002 } } }
    let first := answered (exec .nextNoteTime (answered (exec .settleEnd s)))
    let second := answered (exec .settleEnd (answered (exec .nextNoteTime s)))
    first.stats.feed.notesPlaced = 2 ∧ second.stats.feed.notesPlaced = 2 ∧ first.feed.nextNote = some 40052 ∧
      second.feed.nextNote = some 40052 := by decide +kernel

/-- R173, R153: bridge enable is set and both START requests begin homing. -/
theorem test_bridge_enable :
    let t := answered (exec .bridgeEnable { running with feed := { running.feed with enabling := .due } })
    t.axes.pan.mode = .homing .seek ∧ t.axes.tilt.bridgeEnable = true ∧ t.stats.axes.tilt.homesBegun = 1 := by decide

/-! ### Setup, status and resets -/

/-- R181: page 2 part 0 begins with its page and part bytes, and the rotation moves on. -/
theorem test_status_ask_rotates :
    let t := answered (exec (.statusAsk (heardFrom 12 [2, 0])) running)
    (t.outbox.statusReply.entry.map fun e => (e.dest, e.payload.take 2)) = some (12, [2, 0]) ∧ t.setup.nextPart2 = 1 := by
  decide +kernel

/-- R180: COUNT OFF and CLEAR. -/
theorem test_status_ask_flags :
    let t := answered (exec (.statusAsk (heardFrom 12 [9, 6])) { running with longestWait := 7 })
    t.setup.counting = false ∧ t.longestWait = 0 ∧ t.stats = Stats.zero := by decide

/-- R183: a RESTART returns every block to its reset values. -/
theorem test_restart :
    answered (exec (.restart (heardFrom 12 [])) (playing 900020)) = State.reset := by decide +kernel

/-- R183: so does the reset line, which ends its hold. -/
theorem test_reset_line :
    answered (exec .resetLine { playing 9 with pins := { State.reset.pins with resetHeld := true } }) = State.reset := by
  decide +kernel

/-- R183: so does power-on. -/
theorem test_power_on : answered (exec .powerOn (playing 9)) = State.reset := by decide +kernel

/-- R183: while the line is held the part stays at its reset values. -/
theorem test_reset_line_held :
    answered (exec .resetLineHeld (playing 9)) = { State.reset with pins := { State.reset.pins with resetHeld := true } } := by
  decide +kernel

/-- The setup record of station 40 with a circuit of 3: everything but the fields named stands as from the factory. -/
def recordOf40 : List Host.Cell :=
  [(0, 0xA5), (1, 0xC3), (10, 40), (11, 3), (17, 0), (20, 3)]

/-- R177, R184: the read configures station 40; with both ports DOWN the first FEED-NOTE is freed at once, and bridge
enable is due. -/
theorem test_setup_read_complete :
    let t := answered (exec .setupReadComplete (atUptime 1 { State.reset with store := recordOf40 }))
    t.setup.configured = true ∧ t.settings.station = 40 ∧ t.clock.nextBeacon = some 251 ∧ t.feed.enabling = .due := by
  decide +kernel

/-- R179: a part from the factory stays unconfigured. -/
theorem test_setup_read_unconfigured :
    let t := answered (exec .setupReadComplete (atUptime 1 State.reset))
    t.setup.readDone = true ∧ t.setup.configured = false ∧ t.settings = Settings.default := by decide +kernel

/-! ### Witnesses: a state and operands that meet the hypotheses of each statement -/

theorem test_witness_step_runs_front_command :
    { running with pending := [.resetLine, .powerOn] }.pending = [.resetLine, .powerOn] := rfl

/-- With the PWM periods of the instant taken, a third, the last third of a µs, and the one that reaches a multiple of 4 ms
pass with nothing due; so does the last one show time can gain. -/
theorem test_witness_idle_step_passes_time :
    let taken := fun (thirds ms us : Nat) =>
      { running with
        clock := { running.clock with thirds := thirds, ms := ms, us := us },
        colour := { running.colour with nextPeriod := 250 }, bridgeNext := 40 }
    ∀ c ∈ [taken 0 0 0, taken 2 0 0, taken 2 3 999, taken 2 4294967295 998],
      c.pending = [] ∧ c.pins.resetHeld = false ∧ c.dueCommand = none := by decide

/-- A RESTART that a configured station takes, and one that an unconfigured station does. -/
theorem test_witness_device_resets :
    (∀ origin ∈ [(12 : Byte), 250], Taken running .restart (heardFrom origin [])) ∧
    (∀ f ∈ [heardFrom 1 [], heardFrom 250 []],
      let s := { running with setup := { running.setup with configured := false }, settings := Settings.default }
      s.setup.readDone = true ∧ s.setup.configured = false ∧ s.settings.station = 0 ∧ 1 ≤ f.origin.toNat ∧
        f.origin.toNat ≤ 250 ∧ f.dest.toNat = 255 ∧ f.payload = []) := by
  unfold Taken Addressed RightSize; decide

theorem test_witness_character_taken :
    let header := hearing .header (beaconOf17.take 5) running
    let body := hearing .body (beaconOf17.take 7) running
    let last := hearing .body (beaconOf17.take 22) running
    let whole := hearing .body beaconOf17 running
    running.setup.readDone = true ∧ running.ports.a.asm.state = .idle ∧ State.reset.setup.readDone = false ∧
      header.ports.a.asm.bytes.length < 6 ∧
      (∀ s ∈ [body, last], s.ports.a.asm.bytes.length < 9 + (s.ports.a.asm.bytes.getD 6 0).toNat) ∧
      9 + (whole.ports.a.asm.bytes.getD 6 0).toNat ≤ whole.ports.a.asm.bytes.length := by decide +kernel

/-- A length byte that is discarded, one of an own frame, one at the hop limit, one for a port that is DOWN, one that finds
no room, and one whose copy is opened. -/
theorem test_witness_header_point :
    let head := fun (origin dest hops : Byte) => hearing .header [0xC5, 1, origin, dest, 0, hops] running
    let down := { head 17 255 0 with ports := { (head 17 255 0).ports with b := PortState.initial } }
    (∀ s ∈ [head 17 255 0, head 40 255 0, head 17 40 0, head 17 255 31, head 17 255 30, down],
      s.setup.readDone = true ∧ s.ports.a.asm.state = .header ∧ s.ports.a.asm.bytes.length = 6) ∧
    running.settings.hopLimit = 32 ∧ (512 - 9 - 48 = 455) := by decide +kernel

/-- Port A with a frame whose last stop bit ended two character times ago. -/
def closing (bytes : List Byte) : State :=
  let s := hearing .body bytes (atUptime 2 running)
  { s with ports := { s.ports with a := { s.ports.a with asm := { s.ports.a.asm with lastEnd := 5980 } } } }

theorem test_witness_frame_not_consumed :
    (Closes (closing (beaconOf17.take 22)) .a ∧ ¬ Passes (closing (beaconOf17.take 22)).ports.a.asm) ∧
    let own := closing (sealFrame [0x05, 40, 255, 0, 0, 0])
    Closes own .a ∧ Passes own.ports.a.asm ∧ own.settings.station ≠ 0 ∧
      (own.ports.a.asm.bytes.getD 2 0).toNat = own.settings.station := by
  unfold Closes Passes; decide +kernel

theorem test_witness_frame_handed_on :
    let unknown := closing (sealFrame [0x77, 17, 255, 0, 0, 0])
    let started := { closing beaconOf17 with pins := { running.pins with startBit := { a := some 6000, b := none } } }
    (∀ s ∈ [closing beaconOf17, unknown], Closes s .a ∧ Passes s.ports.a.asm ∧
      (s.settings.station ≠ 0 → (s.ports.a.asm.bytes.getD 2 0).toNat ≠ s.settings.station)) ∧
    kindOfCode 0x77 = none ∧ started.pins.startBit.get .a = some (started.ports.a.asm.lastEnd + 20) := by
  unfold Closes Passes; decide +kernel

/-- Nothing waiting; a first FEED-NOTE that port B has sent, waited for by bridge enable and by nothing; and one that port B
has still to send. -/
theorem test_witness_port_goes_down :
    let noting := fun (sentOnB : Bool) (enabling : Enabling) => { atUptime 250 running with
      outbox := { Outbox.initial with feedNote :=
        { entry := some { waitingOnA 247 with waited := { a := true, b := true }, sent := { a := false, b := sentOnB } },
          lastFreed := none } },
      feed := { running.feed with enabling := enabling } }
    (∀ s ∈ [atUptime 250 running, noting true .waiting, noting true .done, noting false .waiting],
      s.ports.a.up = true ∧ s.ports.a.lastChar + 250 ≤ s.clock.thirds / 3000) ∧
    (noting true .waiting).feed.enabling = .waiting ∧ (noting true .done).feed.enabling ≠ .waiting ∧
    (let t := answered (exec (.portSilenceTimeout .a) (noting true .waiting));
      t.outbox.feedNote = { entry := none, lastFreed := some 250 } ∧ t.longestWait = 3 ∧ t.feed.enabling = .due) ∧
    (answered (exec (.portSilenceTimeout .a) (noting false .waiting))).feed.enabling = .waiting := by decide

/-- A relayed frame with no own entry that waits; the outbox of section 1.7, whose MATCH-NOTE has waited 3 ms and comes
before a STATUS-REPLY and a throttled FEED-NOTE; and an empty one. -/
theorem test_witness_choice_point :
    let relays := { running with ports := { running.ports with a := { running.ports.a with fifo :=
      { readPtr := 0, committed := [{ bytes := [0xC5], ended := 0 }], copy := none } } } }
    (LineIdle relays .a ∧ relays.ports.a.fifo.committed = [{ bytes := [0xC5], ended := 0 }] ∧ ¬ OwnWaits relays .a) ∧
    (LineIdle outboxExample .a ∧ outboxExample.ports.a.fifo.committed = [] ∧ outboxExample.ports.a.tx.sentAhead = false ∧
      OwnWaits outboxExample .a ∧ Arbitrated outboxExample .a .matchNote ∧
      (outboxExample.outbox.get .matchNote).entry = some (waitingOnA 997)) ∧ ∀ c, ¬ Owes running .a c := by
  have nothing : ∀ c, ¬ Owes running .a c := by rintro c ⟨e, h, -⟩; cases c <;> cases h
  have owes : Owes outboxExample .a .matchNote := ⟨waitingOnA 997, rfl, rfl, rfl⟩
  have free : ¬ Throttled outboxExample .matchNote := by
    rintro ⟨t, h, late⟩
    cases h
    exact absurd late (by decide)
  refine ⟨⟨⟨rfl, fun e h => by cases h⟩, rfl, fun ⟨c, _, h, _⟩ => nothing c h⟩, ⟨⟨rfl, fun e h => by cases h⟩, rfl, rfl,
    ⟨.matchNote, _, owes, rfl, by decide⟩, ⟨owes, fun h => absurd h free, fun d h implies => ?_⟩, rfl⟩, nothing⟩
  cases d with
  | beacon => obtain ⟨e, h, -⟩ := h; cases h
  | moveNote => obtain ⟨e, h, -⟩ := h; cases h
  | feedNote => exact absurd (implies ⟨995, rfl, by decide⟩) free
  | matchNote => exact Nat.le_refl _
  | statusReply => decide

theorem test_witness_relayed_bytes :
    beaconOf17.length = 9 + (beaconOf17.getD 6 0).toNat ∧ beaconOf17.getD 0 0 = 0xC5 ∧ beaconOf17.getD 1 0 = 0x01 ∧
      beaconOf17.length = 23 := by decide +kernel

/-- A transmission of 15 characters that ends at the present instant: a relayed frame, a superseded entry, and an entry
that the port completes. -/
theorem test_witness_transmission_ends :
    let sends := fun source => sending source (List.replicate 15 0) 2999850 outboxExample
    let relay := { sends .relayed with ports := { (sends .relayed).ports with a := { (sends .relayed).ports.a with
      fifo := { readPtr := 500, committed := [{ bytes := List.replicate 15 0, ended := 0 }], copy := none } } } }
    (∀ s ∈ [relay, sends (.own .matchNote false), sends (.own .matchNote true)],
      s.ports.a.tx.current.isSome ∧ 2999850 + 10 * 15 ≤ s.clock.thirds) ∧
    relay.ports.a.fifo.committed = [{ bytes := List.replicate 15 0, ended := 0 }] ∧
    (relay.ports.b.tx.current = none ∧ (sends .relayed).clock.thirds = 2999850 + 10 * 15 ∧
      [2999850 + 10 * 0, 2999850 + 10 * 14 + 1 + 7, 2999850 + 10 * 14 + 9].map
        (fun thirds => ({ relay with clock := { relay.clock with thirds := thirds } } : State).transmitBit .a) =
          [.start, .data false, .stop]) ∧
    ((sends (.own .matchNote true)).outbox.get .matchNote).entry = some (waitingOnA 997) := by decide

theorem test_witness_frames_not_handed_on :
    (running.setup.configured = true ∧ ¬ Addressed running (heardFrom 40 [])) ∧
    (Addressed running (heardFrom 12 []) ∧ ¬ RightSize .cueGo (heardFrom 12 [])) ∧
    Taken running .statusReply (heardFrom 41 [0]) := by
  unfold Taken Addressed RightSize; decide

/-- A full FIFO, and one with the whole declared length of a frame being copied into it left, hold. -/
theorem test_witness_relay_fifos_never_overflow :
    let s := hearing .body (beaconOf17.take 7) running
    FifosHold { s with ports := { s.ports with
      a := { s.ports.a with fifo :=
        { readPtr := 0, committed := [{ bytes := List.replicate 512 0, ended := 0 }], copy := none } },
      b := { s.ports.b with fifo :=
        { readPtr := 0, committed := [{ bytes := List.replicate 489 0, ended := 0 }],
          copy := some (beaconOf17.take 7) } } } } := by
  intro _ p
  cases p
  · exact ⟨by decide +kernel, (fun bs h => by cases h), (fun h => by cases h), fun h => by cases h⟩
  · refine ⟨by decide +kernel, fun bs h => ?_, fun _ => rfl, fun h => by cases h⟩
    obtain rfl : beaconOf17.take 7 = bs := Option.some.inj h
    decide +kernel

/-- A beacon of the own epoch 0 or another, heard by a running station. -/
def beaconHeard (epoch ms us correction : Nat) : Frame :=
  heardFrom 41 (beaconOf 2 epoch ms us correction 10)

theorem test_witness_beacon_ignored :
    (Taken running .beacon (beaconHeard 7 5 1000 0) ∧ 999 < fieldAt (beaconHeard 7 5 1000 0).payload 8 2) ∧
    (Taken running .beacon (beaconHeard 7 5 0 16777215) ∧
      fieldAt (beaconHeard 7 5 0 16777215).payload 10 3 = 16777215) ∧
    (Taken (atShow 0 running) .beacon (beaconHeard 6 5 999 0) ∧
      fieldAt (beaconHeard 6 5 999 0).payload 8 2 ≤ 999 ∧
      fieldAt (beaconHeard 6 5 999 0).payload 10 3 ≠ 16777215 ∧
      fieldAt (beaconHeard 6 5 999 0).payload 2 2 < (atShow 0 running).clock.epoch) := by
  unfold Taken Addressed RightSize; decide

/-- Without a gather and with one. -/
theorem test_witness_epoch_adopted :
    let f := beaconHeard 8 1200 323 0
    let gathering := { playing 900050 with play := { (playing 900050).play with
      gather := some { group := 3, cue := 10, goTick := 900050, closeTick := 900074, ownPlan := 1, ownEnd := 900078,
                       groupEnd := 900078, notes := 0 } } }
    (Taken gathering .beacon f ∧ gathering.clock.epoch < fieldAt f.payload 2 2 ∧ gathering.play.gather ≠ none) ∧
    Taken (playing 900050) .beacon f ∧ fieldAt f.payload 8 2 ≤ 999 ∧ fieldAt f.payload 10 3 ≠ 16777215 ∧
      (playing 900050).clock.epoch < fieldAt f.payload 2 2 ∧ (playing 900050).play.gather = none := by
  unfold Taken Addressed RightSize; decide

/-- A clock state with its counts at a show time of 1 s, and the offset class a beacon of a show time gives there: 77 µs are
its own serialization. -/
theorem test_witness_beacon_of_own_epoch :
    let clock := fun mode consecutive disagreement =>
      { running with clock := { running.clock with
        mode := mode, ms := 1000, us := 77, consecutive := consecutive, disagreement := disagreement } }
    let offset := fun (s : State) (f : Frame) => ((fieldAt f.payload 4 4 * 1000 + fieldAt f.payload 8 2 +
      fieldAt f.payload 10 3 + 77 : Nat) : Int) - ((s.clock.ms * 1000 + s.clock.us : Nat) - (s.clock.thirds / 3 - f.ended / 3 : Nat))
    let far := beaconHeard 0 1002 1 0
    let near := beaconHeard 0 1002 0 0
    let ahead := beaconHeard 0 1000 1 0
    let level := beaconHeard 0 1000 0 0
    let behind := beaconHeard 0 998 0 0
    let lost := beaconHeard 0 997 999 0
    (∀ f ∈ [far, near, ahead, level, behind, lost],
      Taken running .beacon f ∧ fieldAt f.payload 8 2 ≤ 999 ∧ fieldAt f.payload 10 3 ≠ 16777215 ∧
        fieldAt f.payload 2 2 = running.clock.epoch) ∧
    (∀ s ∈ [clock .free 0 0, clock .seek 1 0, clock .seek 2 0, clock .locked 3 1, clock .locked 3 2, clock .holdover 3 2],
      [far, near, ahead, level, behind, lost].map (offset s) = [2001, 2000, 1, 0, -2000, -2001] ∧
        s.settings.lockCount = 3 ∧ Addressed s far) ∧
    (let one := { clock .seek 0 0 with settings := { running.settings with lockCount := 1 } };
      Addressed one far ∧ one.settings.lockCount = 1 ∧ offset one far = 2001) := by
  unfold Taken Addressed RightSize; decide +kernel

theorem test_witness_clock_timers :
    let slews := { atShow 3 (atUptime 1 running) with clock :=
      { (atShow 3 (atUptime 1 running)).clock with us := 999, catchUp := 1 } }
    let last := { slews with clock := { slews.clock with ms := 4294967295, us := 998 } }
    (∀ s ∈ [slews, last], s.clock.mode = .locked ∧ 0 < s.clock.catchUp ∧ 3000 ∣ s.clock.thirds ∧
      s.clock.slewedAt ≠ s.clock.thirds / 3000 ∧ s.clock.ms * 1000 + s.clock.us < 4294967295 * 1000 + 999) ∧
    (let stopped := { last with clock := { last.clock with us := 999 } };
      4294967295 * 1000 + 999 ≤ stopped.clock.ms * 1000 + stopped.clock.us) ∧
    (∀ mode ∈ [ClockMode.locked, .seek],
      let s := { atUptime 1000 running with clock := { (atUptime 1000 running).clock with mode := mode, lastBeacon := some 0 } }
      s.clock.lastBeacon = some 0 ∧ 0 + 1000 ≤ s.clock.thirds / 3000) ∧
    (atUptime 30000 { running with clock := { running.clock with mode := .holdover, holdoverEntry := some 0 } }).clock.thirds
      = 3000 * (0 + 30000) := by decide +kernel

theorem test_witness_beacon_placed :
    let s := atUptime 101 { running with clock := { running.clock with nextBeacon := some 101 } }
    s.clock.nextBeacon = some 101 ∧ 101 ≤ s.clock.thirds / 3000 := by decide

/-- Show time at the end of its range is in range. -/
theorem test_witness_show_time_never_runs_back :
    ShowTimeInRange { atShow 4294967295 running with clock := { (atShow 4294967295 running).clock with us := 999 } } := by
  unfold ShowTimeInRange; decide

theorem test_witness_peer_note_taken :
    ∀ circuit ∈ ([0, 1, 15, 16] : List Byte),
      Taken running .feedNote (heardFrom 42 [circuit, 0, 0, 0]) ∧
        Taken running .matchNote (heardFrom 42 ([circuit] ++ List.replicate 9 0)) := by
  unfold Taken Addressed RightSize; decide

/-- A table that knows station 42, and one that does not and has room for one more. -/
theorem test_witness_peer_note_taken_table :
    peerOf [peer 42 0 1] 42 ≠ none ∧
      peerOf ((List.range 23).map fun i => peer (62 + i) 0 0) 42 = none ∧
      ((List.range 23).map fun i => peer (62 + i) 0 0).length < 24 := by decide

/-- Beacons of each station kind, of clock states 0, 1, 3 and 4, and with intervals at the ends of 5 to 25 units. -/
def beaconContents : List (List Byte) :=
  [[1, 3], [2, 4], [3, 0], [0, 1]].zipWith (fun head interval => head ++ List.replicate 11 0 ++ [interval])
    [4, 5, 25, 26]

theorem test_witness_peer_note_taken_beacon :
    ∀ content ∈ beaconContents, Taken running .beacon (heardFrom 42 content) := by
  unfold Taken Addressed RightSize; decide

/-- A full table whose candidate is station 201: the greater least hops of the two heard at 19 s or so. -/
def fullTable (last : Nat) : State :=
  { atUptime 20000 running with
    peers := (List.range 22).map (fun i => peer (62 + i) 19990 0) ++ [peer 200 last 4, peer 201 last 6] }

/-- Its age is 201 ms or 200 ms, and twice its age unit 200 ms. -/
theorem test_witness_full_peer_table :
    ∀ last ∈ [19799, 19800],
      PeersHold (fullTable last) ∧ Taken (fullTable last) .feedNote (heardFrom 61 [0, 0, 0, 0]) ∧
      peerOf (fullTable last).peers 61 = none ∧ (fullTable last).peers.length = 24 ∧
      peer 201 last 6 ∈ (fullTable last).peers ∧
      ∀ r ∈ (fullTable last).peers, r ≠ peer 201 last 6 → last < r.lastHeard ∨ (last = r.lastHeard ∧
        (r.leastHops < 6 ∨ (r.leastHops = 6 ∧ r.station < 201))) := by
  unfold PeersHold Taken Addressed RightSize; decide +kernel

/-- The other two frames that can enter a station. -/
theorem test_witness_full_peer_table_kinds :
    Taken (fullTable 19799) .matchNote (heardFrom 61 (List.replicate 10 0)) ∧
      Taken (fullTable 19799) .beacon (heardFrom 61 (List.replicate 14 0)) := by
  unfold Taken Addressed RightSize; decide +kernel

theorem test_witness_peers_forgotten :
    let part : MatchPart :=
      { group := 2, ceilings := PerEmitter.of fun _ => 9, outOfMatch := false, pulled := false, refreshed := 0 }
    let r := { peer 41 0 0 with feedPart := claims 3 600, matchPart := some part }
    peerOf { running with peers := [r] }.peers 41 = some r ∧
      (atUptime 400 running).clock.thirds / 3000 = r.lastHeard + 4 * running.settings.beaconInterval ∧
      (atUptime 1000 running).clock.thirds / 3000 = 0 + 1000 ∧
      (atUptime 2000 running).clock.thirds / 3000 = part.refreshed + 2000 := by decide

/-- Numbers 0 and 10000; 1 without parts; one at the line; and a full list of other numbers. -/
theorem test_witness_cue_load_refused :
    let load := fun n flags => heardFrom 12 (loadOf n flags 0 0 0)
    let full := withCueList ((List.range 128).map fun i => bare (i + 2)) running
    (∀ f ∈ [load 0 1, load 10000 1, load 1 0, load 9999 0, load 20 4, load 1 1], Taken running .cueLoad f) ∧
    (fieldAt (load 10000 1).payload 0 2 = 10000 ∧ fieldAt (load 9999 0).payload 0 2 = 9999 ∧
      (fieldAt (load 20 4).payload 2 1).testBit 2 = true ∧ (fieldAt (load 1 1).payload 2 1).testBit 0 = true) ∧
    (∀ q ∈ full.cues.cues, q.number ≠ 1) ∧ full.cues.cues.length = 128 ∧ full.cues.line < 1 := by
  unfold Taken Addressed RightSize; decide +kernel

/-- A record replaced in a full list, and one that is the 128th. -/
theorem test_witness_cue_load_stored :
    let list := fun k => withCueList ((List.range k).map fun i => bare (i + 2)) running
    let load := fun n => heardFrom 12 (loadOf n 0x3F 65535 65535 255)
    (∀ f ∈ [load 1, load 9999], Taken running .cueLoad f) ∧
    fieldAt (load 9999).payload 0 2 = 9999 ∧ (list 127).cues.line < 1 ∧ (list 127).cues.cues.length < 128 ∧
    ∃ q ∈ (list 128).cues.cues, q.number = 2 := by
  unfold Taken Addressed RightSize; decide +kernel

/-- The cue list of the example of section 5.11 holds. -/
theorem test_witness_cues_hold (s : State) (line : Nat) (h : line ≤ 9999) :
    CuesHold { s with cues := { s.cues with cues := [cueFive, cueSix, cueSeven], line := line } } := by
  refine ⟨by simp, by simp [cueFive, cueSix, cueSeven, bare], ?_, h⟩
  intro q hq
  simp only [List.mem_cons, List.not_mem_nil, or_false] at hq
  rcases hq with rfl | rfl | rfl <;>
    simp [Cue.InRange, cueFive, cueSix, cueSeven, bare] <;> intro e <;> cases e <;> decide

theorem test_witness_clear_and_protect :
    let s := withCueList [cueFive, cueSix, cueSeven] { running with cues := { running.cues with line := 50 } }
    let clear := fun low high => heardFrom 12 (beBytes 2 low ++ beBytes 2 high)
    (∀ f ∈ [clear 61 60, clear 60 60, clear 50 60], Taken s .cueClear f) ∧
    (∀ q ∈ s.cues.cues, ¬ (60 ≤ q.number ∧ q.number ≤ 60 ∧ q.number ≤ s.cues.line)) ∧ CuesHold s ∧
    (cueFive ∈ s.cues.cues ∧ ∀ r ∈ s.cues.cues, r.number ≤ s.cues.line → 50 ≤ r.number) ∧
    (∀ n ∈ [10000, 9999, 49, 50], Taken s .protect (heardFrom 13 (beBytes 2 n)) ∧
      fieldAt (heardFrom 13 (beBytes 2 n)).payload 0 2 = n) := by
  refine ⟨?_, by decide, test_witness_cues_hold _ 50 (by decide), by decide, ?_⟩ <;>
    (unfold Taken Addressed RightSize; decide +kernel)

theorem test_witness_tables_kept :
    CuesHold (withCueList [cueFive, cueSix, cueSeven] running) ∧ PeersHold (fullTable 19800) ∧
      StoreHolds { running with store := recordOf40 } := by
  refine ⟨test_witness_cues_hold _ 0 (by decide), ?_, ?_⟩
  · unfold PeersHold; decide +kernel
  · unfold StoreHolds; decide

/-- Station 40 of section 5.11 with the last-taken GO of cue 5.0 at 900,100. -/
def playedFive (mode : ClockMode) : State :=
  let s := playing 900600
  { s with
    clock := { s.clock with mode := mode },
    play := { s.play with lastGo := some { cueField := 50, resolved := 50, tick := 900100 } } }

/-- A GO is no duplicate of another cue's. -/
theorem not_duplicate (mode : ClockMode) (n : Nat) (tick : Int) (h : n ≠ 50 ∨ tick < 900080 ∨ 900120 < tick) :
    ¬ DuplicateGo (playedFive mode) n tick := by
  rintro (⟨g, hg, -⟩ | ⟨g, hg, ⟨h1, h2⟩, hn⟩)
  · cases hg
  · cases hg
    simp only [or_self] at h1 h2 hn
    omega

/-- Duplicates at 20 ms either side, a tick one ahead of the present, a number no cue has, unsynced and with its tick reached
on a synced clock, and a follow of the last cue. -/
theorem test_witness_go_not_taken :
    (∀ f ∈ [heardFrom 12 (tickOf 50 900080), heardFrom 12 (tickOf 50 900120), heardFrom 12 (tickOf 60 900601),
      heardFrom 12 (tickOf 65 900601)],
      Taken (playedFive .locked) .cueGo f ∧ Taken (playedFive .free) .cueGo f) ∧
    (∀ tick ∈ [(900080 : Int), 900120], DuplicateGo (playedFive .locked) 50 tick) ∧
    ¬ DuplicateGo (playedFive .locked) 60 900601 ∧ ((playedFive .locked).clock.ms : Int) < 900601 ∧
    ¬ DuplicateGo (playedFive .free) 65 900601 ∧ CuesHold (playedFive .free) ∧
    (∀ tick ∈ [900599, 900600],
      Taken (playedFive .holdover) .cueGo (heardFrom 12 (tickOf 65 tick)) ∧
        ¬ DuplicateGo (playedFive .holdover) 65 tick ∧ (tick : Int) ≤ ((playedFive .holdover).clock.ms : Nat)) ∧
    (∀ mode q, ¬ ResolvesTo (playedFive mode) 65 q) ∧ ∀ mode q, ¬ NextCue (playedFive mode) 70 q := by
  refine ⟨?_, ?_, not_duplicate _ _ _ (by decide), by decide, not_duplicate _ _ _ (by decide),
    test_witness_cues_hold _ 0 (by decide), fun tick h => ⟨?_, not_duplicate _ _ _ (Or.inl (by decide)), ?_⟩, ?_, ?_⟩
  · unfold Taken Addressed RightSize; decide
  · intro tick h
    refine Or.inr ⟨_, rfl, ?_, Or.inl rfl⟩
    simp at h
    rcases h with rfl | rfl <;> exact ⟨by decide, by decide⟩
  · revert tick
    unfold Taken Addressed RightSize; decide
  · revert tick
    decide
  · rintro mode q ⟨h, -, -⟩
    have := h (by decide)
    revert this
    simp [playedFive, playing, withCueList]
    rintro (rfl | rfl | rfl) <;> decide
  · rintro mode q ⟨h, hn, -⟩
    revert h hn
    simp [playedFive, playing, withCueList]
    rintro (rfl | rfl | rfl) <;> decide

/-- Cue 6.0, without a position part: asked for by its number and by 0, late, at the present instant and unsynced; waiting
in the slot with its tick reached; and as the follow of cue 5.0. -/
theorem test_witness_go_takes_levels :
    CuesHold (playedFive .locked) ∧ (playedFive .locked).play.gather = none ∧ cueSix.pos = none ∧
    (∀ f ∈ [heardFrom 12 (tickOf 60 900560), heardFrom 12 (tickOf 0 900600)],
      Taken (playedFive .locked) .cueGo f ∧ Taken (playedFive .seek) .cueGo f) ∧
    (∀ mode, ¬ DuplicateGo (playedFive mode) 60 900560 ∧ ¬ DuplicateGo (playedFive mode) 0 900600 ∧
      ResolvesTo (playedFive mode) 60 cueSix ∧ ResolvesTo (playedFive mode) 0 cueSix ∧
      NextCue (playedFive mode) 50 cueSix) ∧
    (900600 : Int) ≤ ((playedFive .locked).clock.ms : Nat) := by
  have next : ∀ mode, NextCue (playedFive mode) 50 cueSix := fun mode => by
    refine ⟨by simp [playedFive, playing, withCueList], by decide, ?_⟩
    simp [playedFive, playing, withCueList]
    decide
  refine ⟨test_witness_cues_hold _ 0 (by decide), rfl, rfl, ?_, fun mode => ⟨not_duplicate _ _ _ (by decide),
    not_duplicate _ _ _ (by decide), ⟨fun _ => ⟨(next mode).1, rfl⟩, fun h => (by cases h), fun h => (by cases h)⟩,
    ⟨fun h => absurd rfl h, fun _ g hg => ?_, fun _ h => (by cases h)⟩, next mode⟩, by decide⟩
  · unfold Taken Addressed RightSize; decide
  · cases hg
    exact next mode

/-- A gather open, with cue 5.0, which holds a position part, and cue 6.0, which holds none; and both slots filled, their
ticks reached. -/
theorem test_witness_go_takes_levels_of_gather :
    let gathering := { playedFive .locked with play := { (playedFive .locked).play with gather := some gatherOfThree } }
    let slots := { gathering with play := { gathering.play with
      pendingGo := some { cueField := 60, tick := 900600, origin := 12 }, follow := some { tick := 900600, source := 50 } } }
    (Taken gathering .cueGo (heardFrom 12 (tickOf 50 900600)) ∧ ¬ DuplicateGo gathering 50 900600 ∧
      ResolvesTo gathering 50 cueFive ∧ ¬ DuplicateGo gathering 60 900600 ∧ ResolvesTo gathering 60 cueSix ∧
      gathering.play.gather ≠ none ∧ cueFive.pos.isSome ∧ CuesHold gathering) ∧
    (slots.play.pendingGo = some { cueField := 60, tick := 900600, origin := 12 } ∧ ResolvesTo slots 60 cueSix ∧
      slots.play.follow = some { tick := 900600, source := 50 } ∧ NextCue slots 50 cueSix ∧
      (900600 : Int) ≤ (slots.clock.ms : Nat) ∧ CuesHold slots) := by
  obtain ⟨holds, -, -, -, go, -⟩ := test_witness_go_takes_levels
  have six : ResolvesTo (playedFive .locked) 60 cueSix := (go .locked).2.2.1
  refine ⟨⟨?_, not_duplicate .locked _ _ (by decide), ⟨fun _ => ⟨List.mem_cons_self, rfl⟩, fun h => (by cases h),
    fun h => (by cases h)⟩, not_duplicate .locked _ _ (by decide), six, by decide, rfl, holds⟩,
    ⟨rfl, six, rfl, (go .locked).2.2.2.2, by decide, holds⟩⟩
  have : Taken (playedFive .locked) .cueGo (heardFrom 12 (tickOf 50 900600)) := by
    unfold Taken Addressed RightSize; decide
  exact this

/-- A cue 1.0 that waits for dark or is of a move group, alone in the list. -/
def oneCue (dark : Bool) (group : Nat) : Cue :=
  { bare 10 with
    pos := some { target := { pan := 27000, tilt := 13500 }, moveMs := 2000, moveGroup := group, dark := dark } }

/-- A position part that waits for dark, a plain one, and grouped ones with their close still to come. -/
theorem test_witness_go_sets_position :
    ∀ c ∈ [(true, 3), (false, 0), (false, 1), (false, 15)],
      let q := oneCue c.1 c.2
      let s := withCueList [q] (grouped 1000000)
      Taken s .cueGo (heardFrom 12 (tickOf 10 1000000)) ∧ CuesHold s ∧ s.play.gather = none ∧ q.pos.isSome ∧
        s.clock.mode = .locked ∧ ¬ DuplicateGo s 10 1000000 ∧ ResolvesTo s 10 q ∧ (1000000 : Int) ≤ (s.clock.ms : Nat) ∧
        s.play.early = [] ∧ s.ports.a.up = true ∧
        ((1000000 + 24 + 4 * (s.plan { pan := 20000, tilt := 9000 } { pan := 27000, tilt := 13500 } 2000 15000).length :
          Nat) : Int) ≤ 4294967295 := by
  intro c h q s
  have number : q.number = 10 := rfl
  have inRange : q.InRange := by
    refine ⟨Nat.le_of_ble_eq_true rfl, Nat.le_of_ble_eq_true rfl, Or.inl rfl, fun p hp => ?_, fun _ h => (by cases h), fun _ h => (by cases h),
      Nat.zero_le _, fun _ h => (by cases h)⟩
    obtain rfl := Option.some.inj hp
    exact ⟨Nat.le_of_ble_eq_true rfl, Nat.le_of_ble_eq_true rfl, Nat.le_of_ble_eq_true rfl, by
      simp only [List.mem_cons, List.not_mem_nil, or_false] at h
      rcases h with rfl | rfl | rfl | rfl <;> decide⟩
  refine ⟨?_, ⟨Nat.le_of_ble_eq_true rfl, List.pairwise_singleton _ _, fun r hr => ?_, Nat.zero_le _⟩, rfl, rfl, rfl, ?_,
    ⟨fun _ => ⟨List.mem_singleton.mpr rfl, number⟩, fun h => (by cases h), fun h => (by cases h)⟩, Int.le_refl _, rfl, rfl,
    (by decide +kernel : ((1000000 + 24 + 4 * ((grouped 1000000).plan { pan := 20000, tilt := 9000 }
      { pan := 27000, tilt := 13500 } 2000 15000).length : Nat) : Int) ≤ 4294967295)⟩
  · have : Taken (grouped 1000000) .cueGo (heardFrom 12 (tickOf 10 1000000)) := by
      unfold Taken Addressed RightSize; decide
    exact this
  · obtain rfl := List.mem_singleton.mp hr
    exact inRange
  · rintro (⟨g, h, -⟩ | ⟨g, h, -⟩) <;> cases h

/-- A grouped part taken while another gather is open, with an early note that agrees at 20 ms, its close already reached and
1 ms ahead; from the slot, by a follow, and by a GO on a clock in SEEK. -/
theorem test_witness_go_sets_position_at_once :
    let q := oneCue false 3
    let s := withCueList [q] (grouped 1000000)
    let s := { s with play := { s.play with
      gather := some gatherOfThree, pendingGo := some { cueField := 10, tick := 999976, origin := 12 },
      follow := some { tick := 999977, source := 9 },
      early := [{ group := 3, cue := 10, goTick := 999996, proposedEnd := 1002024, setAt := 0 }] } }
    let seeking := { s with clock := { s.clock with mode := .seek }, play := { s.play with pendingGo := none } }
    ResolvesTo s 10 q ∧ NextCue s 9 q ∧ s.play.gather ≠ none ∧ s.clock.mode = .locked ∧
      (999976 + 24 : Int) ≤ (s.clock.ms : Nat) ∧ ((s.clock.ms : Nat) : Int) < 999977 + 24 ∧
      Taken seeking .cueGo (heardFrom 12 (tickOf 10 1000001)) ∧ ¬ DuplicateGo seeking 10 1000001 ∧ ResolvesTo seeking 10 q := by
  intro q s seeking
  have resolves : ResolvesTo s 10 q := ⟨fun _ => ⟨List.mem_cons_self, rfl⟩, fun h => (by cases h), fun h => (by cases h)⟩
  refine ⟨resolves, ⟨List.mem_cons_self, by decide, fun r hr _ => ?_⟩, by decide, rfl, by decide, by decide, ?_, ?_,
    resolves⟩
  · obtain rfl := List.mem_singleton.mp hr
    exact Nat.le_refl _
  · have : Taken { grouped 1000000 with clock := { (grouped 1000000).clock with mode := .seek } } .cueGo
        (heardFrom 12 (tickOf 10 1000001)) := by
      unfold Taken Addressed RightSize; decide
    exact this
  · rintro (⟨g, h, -⟩ | ⟨g, h, -⟩) <;> cases h

/-- The acceleration of 1 and the distance of the whole travel; an axis with a grant between hold and run current; and a plan
of 8 render frames, the first of each third of its profile and its end. -/
theorem test_witness_searches_are_exact :
    (speedTime 1 54000 = 72000 ∧ accelTime 1 54000 = 2147 ∧ brakeCap 1 1 = 1) ∧
      running.settings.axes.pan.holdCurrent < running.settings.axes.pan.runCurrent ∧
      (∀ x ∈ [Axis.pan, .tilt], (running.settings.axes.get x).softLow ≤ (running.settings.axes.get x).softHigh) ∧
      (4 * 2 ≤ 8 ∧ 8 < 4 * 3 ∧ 4 * 3 < 3 * 8 ∧ 3 * 8 ≤ 4 * 6 ∧ [0, 2, 3, 6, 8].map (profile 96 8) = [0, 16, 32, 80, 96]) := by
  decide +kernel

/-- A wait at its start tick, a wait of no length whose end is reached, and a fade at its end, of each lane. -/
theorem test_witness_lane_tick :
    ∀ t ∈ ([{ state := .wait .delay, startTick := 5, endTick := some 6 },
            { state := .wait .delay, startTick := 5, endTick := some 5 },
            { state := .fade, startTick := 1, endTick := some 5 }] : List Timing),
      (t.state = .wait .delay → t.startTick ≤ ((atShow 5 running).clock.ms : Nat)) ∧
      (t.endTick = some 6 ∨ t.endTick = some ((atShow 5 running).clock.ms : Nat)) := by decide

/-- INTENSITY in a DELAY wait of no length, its tick reached at show ms 5. -/
def waitOver : State :=
  { atShow 5 running with play := { running.play with intensity :=
    { timing := { state := .wait .delay, startTick := 5, endTick := some 5 }, start := 800, target := 200 } } }

/-- R68, R69, R90, R126: it has its start value until the tick is taken and its target then; a consumer at that boundary reads
the target both times. -/
theorem test_lane_reads_the_same :
    let t := answered (exec (.laneTick .intensity) waitOver)
    waitOver.play.intensity.value 5 = 800 ∧ t.play.intensity.value 5 = 200 ∧ waitOver.intensityAt 5 = 200 ∧
      t.intensityAt 5 = 200 := by decide

/-- R80: a lane in WAIT starts from its start value, at its tick too. -/
theorem test_release_of_waiting_lane :
    (answered (exec (.cueRelease (heardFrom 12 (tickOf 100 5))) waitOver)).play.intensity.start = 800 := by decide

/-- A wait whose start tick is still to come and a fade whose end tick is, before its start, at it, and in a render frame. -/
theorem test_witness_lane_tick_stays :
    let wait : Timing := { state := .wait .delay, startTick := 6, endTick := some 6 }
    let fade : PosLanes :=
      { timing := { state := .fade, startTick := 5, endTick := some 37 }, start := { pan := 0, tilt := 0 },
        target := { pan := 96, tilt := 0 }, plan := some 8, moveMs := 0 }
    (((atShow 5 running).clock.ms : Nat) : Int) < wait.startTick ∧ (4 : Int) < fade.timing.startTick ∧
      [(4 : Int), 5, 8, 9, 17, 37].map (fade.value .pan) = [0, 0, 0, 4, 32, 96] := by decide +kernel

/-- A release 20 ms after the last, and one 21 ms after it; on a synced clock and on a free one. -/
theorem test_witness_cue_release :
    let s := fun mode => { playing 903000 with
      clock := { (playing 903000).clock with mode := mode },
      play := { (playing 903000).play with lastRelease := some 903000 } }
    (∀ f ∈ [heardFrom 12 (tickOf 1500 903020), heardFrom 12 (tickOf 0 903021), heardFrom 12 (tickOf 65535 902979)],
      Taken (s .locked) .cueRelease f ∧ Taken (s .free) .cueRelease f) ∧
    Within20 903020 903000 ∧ ¬ Within20 903021 903000 ∧ ¬ Within20 902979 903000 := by
  unfold Taken Addressed RightSize Within20; decide

/-- A gather at its close tick whose group end is above its cap, as 15,000 render frames are greater than its own plan. -/
theorem test_witness_gather_closes :
    let s := grouped 1000024
    let s := { s with play := { s.play with gather := some { gatherOfThree with groupEnd := 1060025 } } }
    s.play.gather = some { gatherOfThree with groupEnd := 1060025 } ∧
      gatherOfThree.closeTick ≤ (s.clock.ms : Nat) ∧ gatherOfThree.closeTick + 4 * 15000 = 1060024 := by decide

/-- Move groups 0 and 16, 1 and 15; a note of the gather and of the finished one at 20 ms; and an early table with room, with
an agreeing note, and full. -/
theorem test_witness_move_notes :
    let s := grouped 1000003
    let gathering := { s with play := { s.play with gather := some gatherOfThree } }
    let finished := { s with play := { s.play with finished := some { group := 3, cue := 10, goTick := 1000000 } } }
    let early := fun k => { s with play := { s.play with early := (List.range k).map fun i =>
      { group := 15, cue := i, goTick := 1000000, proposedEnd := 0, setAt := i } } }
    let note := fun group cue => heardFrom 41 (noteOf group cue 1000020 1002104)
    (∀ f ∈ [note 0 10, note 16 10, note 1 10, note 3 10, note 15 0, note 15 10],
      Taken gathering .moveNote f ∧ Taken finished .moveNote f ∧ Taken (early 4) .moveNote f) ∧
    (gathering.play.gather = some gatherOfThree ∧ gatherOfThree.group = 3 ∧ gatherOfThree.cue = 10 ∧
      Within20 1000020 gatherOfThree.goTick) ∧ finished.play.gather = none ∧
    ((early 4).play.gather = none ∧ (early 4).play.finished = none) ∧
    (∀ m ∈ (early 3).play.early, m.cue ≠ 10) ∧ (early 3).play.early.length = 3 ∧
    (early 4).play.early = [] ++ { group := 15, cue := 0, goTick := 1000000, proposedEnd := 0, setAt := 0 } ::
      (early 4).play.early.drop 1 ∧
    (∀ k ∈ [] ++ (early 4).play.early.drop 1, k.cue ≠ 0 ∧ 0 < k.setAt) ∧
    (atUptime 250 (early 4)).clock.thirds / 3000 = 0 + 250 := by
  unfold Taken Addressed RightSize Within20; decide

/-- Early notes of three groups at one set time, given by group, cue and proposed end. -/
def earlyOf (notes : List (Nat × Nat × Int)) : State :=
  { grouped 1000003 with play := { (grouped 1000003).play with early := notes.map fun n =>
    { group := n.1, cue := n.2.1, goTick := 1000000, proposedEnd := n.2.2, setAt := 5 } } }

/-- Of two early notes that a MOVE-NOTE agrees with both are raised; and of a full table of one set time the entry of the
lower group, then of the lower cue, then, by log 19, the elder goes. -/
theorem test_witness_move_notes_of_early :
    let heard := fun s cue => (answered (exec (.moveNote (heardFrom 41 (noteOf 3 cue 1000020 1002104))) s)).play.early.map
      fun n => n.proposedEnd
    let two := earlyOf [(3, 10, 7), (3, 11, 8), (3, 10, 1002105)]
    let full := earlyOf [(4, 1, 0), (3, 9, 1), (3, 8, 2), (3, 8, 3)]
    (∀ s ∈ [two, full], ∀ cue ∈ [10, 12], Taken s .moveNote (heardFrom 41 (noteOf 3 cue 1000020 1002104))) ∧
      two.play.gather = none ∧ two.play.finished = none ∧ full.play.early.length = 4 ∧
      heard two 10 = [1002104, 8, 1002105] ∧ heard full 12 = [0, 1, 3, 1002104] := by
  unfold Taken Addressed RightSize; decide +kernel

/-- A pair waiting for dark at its start tick with INTENSITY at 0, one that waits on, and one in HOLD. -/
theorem test_witness_dark_start :
    let at' := fun (timing : Timing) => let s := atBoundary 904520 (playing 904520)
      { s with play := { s.play with pos := { s.play.pos with timing := timing } } }
    (∀ s ∈ [at' { state := .wait .dark, startTick := 904520, endTick := none },
            at' { state := .wait .dark, startTick := 904521, endTick := none }, at' Timing.initial],
      s.marks.playback = [904520] ∧ s.intensityAt 904520 = 0) ∧
    (at' { state := .wait .dark, startTick := 904520, endTick := none }).play.pos.timing.startTick ≤ 904520 := by decide

/-- A step of the derating table reached exactly; in a match group with a minimum, in none, out of match, and dark. -/
theorem test_witness_colour_boundary :
    let s := atBoundary 4 coloured
    let hot := { s with sense := { s.sense with emitterTemp := 60 } }
    let cold := { s with sense := { s.sense with emitterTemp := 44 } }
    s.marks.colour = [4] ∧ (∀ m ∈ cold.settings.derating, cold.sense.emitterTemp < m.threshold) ∧
      ({ threshold := 60, derate := 900 } ∈ hot.settings.derating ∧
        ∀ k ∈ hot.settings.derating, k.threshold ≤ hot.sense.emitterTemp → k.threshold < 60 ∨ (k.threshold = 60 ∧ 900 ≤ k.derate)) ∧
      s.settings.matchGroup ≠ 0 ∧ (matchAnswer s.peers 2).minima.red = some 19000 ∧ running.settings.matchGroup = 0 := by
  decide +kernel

/-- A first MATCH-NOTE before the first BEACON has been placed and after it; a change of a flag; and a ceiling that moves by a
64th of 1280 and by less. -/
theorem test_witness_colour_boundary_places :
    let s := atBoundary 4 coloured
    let begun := { s with clock := { s.clock with nextBeacon := some 9 } }
    let announced := fun (pulled : Bool) => { s with colour := { s.colour with
      lastAnnounced := some { s.announcement with pulled := pulled } } }
    (∀ t ∈ [s, begun, announced false, announced true], t.marks.colour = [4] ∧ t.settings.matchGroup ≠ 0) ∧
      s.colour.lastAnnounced = none ∧ s.clock.nextBeacon = none ∧ begun.clock.nextBeacon ≠ none ∧
      ((announced true).colour.lastAnnounced.map fun n => n.pulled) = some true ∧
      (1280 ≤ 64 * ((1300 : Int) - 1280).natAbs ∧ ¬ 1280 ≤ 64 * ((1299 : Int) - 1280).natAbs) := by decide +kernel

theorem test_witness_must_be_dark :
    MustBeDark { running with feed := { running.feed with tripEnd := some 5 } } ∧ ¬ MustBeDark running := by
  refine ⟨Or.inl (by decide), ?_⟩
  rintro (h | ⟨x, p, h⟩)
  · exact h rfl
  · cases x <;> cases h

/-- A pull of 999 and of 1000, first seen, 499 ms and 500 ms ago; the unpulled likewise. -/
theorem test_witness_pull_announced :
    let s := atBoundary 4 (atUptime 20500 running)
    let at' := fun announced pull since => { s with
      feed := { s.feed with pull := pull },
      colour := { s.colour with announced := announced, pulledSince := since, unpulledSince := since } }
    (∀ t ∈ [at' false 999 none, at' false 999 (some 20000), at' false 999 (some 20001), at' false 1000 none,
        at' true 999 none, at' true 1000 none, at' true 1000 (some 20000), at' true 1000 (some 20001)],
      t.marks.colour = [4] ∧ t.clock.thirds / 3000 = 20000 + 500 ∧ t.clock.thirds / 3000 < 20001 + 500) ∧
    (at' false 999 none).feed.pull < 1000 ∧ 1000 ≤ (at' true 1000 none).feed.pull := by decide

theorem test_witness_periodic_notes :
    let s := { feeding with
      feed := { feeding.feed with nextNote := some 40002 }, colour := { feeding.colour with nextMatch := some 40002 } }
    s.feed.nextNote = some 40002 ∧ s.colour.nextMatch = some 40002 ∧ 40002 ≤ s.clock.thirds / 3000 ∧
      s.settings.circuit ≠ 0 ∧ s.ports.a.up = true := by decide

/-- Both notes owed from such a time, with no port UP and bridge enable waiting for the FEED-NOTE. -/
theorem test_witness_periodic_notes_owed :
    let s := { feeding with
      ports := bothPorts PortState.initial, feed := { feeding.feed with noteOwed := true, enabling := .waiting },
      colour := { feeding.colour with noteOwed := true } }
    s.colour.noteOwed = true ∧ FeedNoteDue s ∧ s.settings.circuit ≠ 0 ∧ s.ports.a.up = false ∧ s.ports.b.up = false ∧
      s.feed.enabling = .waiting := ⟨rfl, Or.inl rfl, by decide, rfl, rfl, rfl⟩

/-- A walk that still has a step to take and one that has none, on a driven axis and on one without current; the microsteps
at the ends of each quadrant; on-counts below and above a count; and running duties at each bound of the deadtime. -/
theorem test_witness_pwm_periods :
    let s := withPan (fun a => { a with mode := .ready, bridgeEnable := true, current := some 120,
                                        walk := { a.walk with walked := 99 } }) (atUptime 1 running)
    (3 * s.colour.nextPeriod ≤ s.clock.thirds ∧ 3 * s.bridgeNext ≤ s.clock.thirds ∧ s.axes.pan.walk.walked < 100 ∧
      100 ≤ s.axes.tilt.walk.walked ∧ s.axes.pan.current = some 120 ∧ 1 ≤ s.settings.axes.pan.fullScale ∧
      s.axes.tilt.current = none) ∧
    ([(-64 : Int), -49, -48, 31, 32, 47, 63].map fun m => m % 64) =
      [(16 * 0 + 0 : Int), 16 * 0 + 15, 16 * 1 + 0, 16 * 1 + 15, 16 * 2 + 0, 16 * 2 + 15, 16 * 3 + 15] ∧
    running.setup.readDone = true ∧ State.reset.setup.readDone = false ∧ running.settings.deadtime = 20 ∧
    ∀ duty ∈ [39, 40, 1560, 1561],
      let d := withPan (fun a => { a with mode := .ready, bridgeEnable := true, live := true,
                                          coilA := { a.coilA with running := { duty := duty, negative := true } } }) running
      d.axes.pan.bridgeEnable = true ∧ d.axes.pan.mode ≠ .tripped ∧ d.axes.pan.live = true ∧
        d.axes.pan.coilA.running.duty = duty ∧
        ((40 ≤ duty ∧ duty + 40 ≤ 1600) ↔ (duty = 40 ∨ duty = 1560)) := by decide +kernel

theorem test_witness_dark_while_forced :
    let s := withPan (fun a => { a with mode := .homing .seek }) running
    DarkWhenForced s ∧ MustBeDark s := by
  refine ⟨fun _ e => ?_, Or.inr ⟨.pan, .seek, rfl⟩⟩
  cases e <;> decide

/-- Moving, standing on the setpoint, and moving with a slip pending. -/
theorem test_witness_axis_follows :
    let pend := withPan fun a => { a with slipPending := true }
    (∀ s ∈ [following 160960 384, following (16 * 10100) 0, pend (following 160960 384)],
      s.marks.axes.get .pan = [4] ∧ (s.axes.get .pan).mode = .ready ∧ (s.axes.get .pan).request ≠ some .slip) ∧
    (following (16 * 10100) 0).axes.pan.slipPending = false ∧
    (let s := pend (following 160960 384);
      followed s.settings.axes.pan (s.feed.grant.get .pan) s.axes.pan (s.positionAt .pan 4) = 304) := by decide +kernel

/-- Pan in a mode before a boundary, nothing requested of it. -/
def inMode (mode : AxisMode) (pos16 v16 : Int) : State :=
  withPan (fun a => { a with mode := mode, request := none }) (following pos16 v16)

/-- R133, R159: RETURN, moving onto its setpoint at the last boundary, comes to rest at this one and ends in READY. -/
theorem test_return_ends_at_rest :
    let y := (answered (exec (.axisBoundary .pan) (inMode (.homing .returning) (16 * 10100) 96))).axes.pan
    (y.v16, y.pos16, y.mode) = (0, 161600, .ready) := by decide +kernel

/-- SEEK at 1.1 × the travel of its phase entry and a count past it; APPROACH standing with its reference and within its
travel; RETURN that comes to rest on its setpoint at this boundary, and one that stood there; and the modes in which the
velocity runs down, with a START or an ASK request waiting and without. -/
theorem test_witness_homing_boundaries :
    let approach := withPan (fun a => { a with reference := some (-7000), phaseEntry := -7003 })
      (inMode (.homing .approach) (16 * (-6998)) 96)
    let seek := fun entry => withPan (fun a => { a with phaseEntry := entry }) (inMode (.homing .seek) 0 (-640))
    let asked := fun r => withPan (fun a => { a with request := some r }) (inMode .unsure 0 96)
    let rest := inMode (.homing .returning) (16 * 10100) 96
    (∀ s ∈ [seek 59360, seek 59361, approach, rest, inMode (.homing .returning) (16 * 10100) 0, inMode .unsure 0 96,
        asked .start, asked .ask, inMode .failed 0 97, inMode .tripped 0 0],
      s.marks.axes.get .pan = [4] ∧ (s.axes.get .pan).request ≠ some .slip ∧ (s.axes.get .pan).slipPending = false ∧
        s.positionAt .pan 4 = 10100 ∧ effectiveAccel (s.settings.axes.get .pan) (s.feed.grant.get .pan) = 96) ∧
    10 * ((-640 : Int) / 16 - 59360).natAbs = 11 * travel .pan ∧
    11 * travel .pan < 10 * ((-640 : Int) / 16 - 59361).natAbs ∧
    max ((96 : Int) - 96) (min (96 + 96) 0) = 0 ∧ 10 * ((-6998 : Int) - -7003).natAbs ≤ 11 * travel .pan ∧
    followed rest.settings.axes.pan (rest.feed.grant.get .pan) rest.axes.pan 10100 = 0 := by
  decide +kernel

/-- BACKOFF; APPROACH before its RISE, moving and too far with its reference taken; and RETURN on its way. -/
theorem test_witness_homing_boundaries_go_on :
    let approach := fun reference entry => withPan (fun a => { a with reference := reference, phaseEntry := entry })
      (inMode (.homing .approach) 0 97)
    (∀ s ∈ [inMode (.homing .backoff) 0 0, approach none 0, approach (some (-7000)) 0, approach (some (-7000)) 59401,
        inMode (.homing .returning) 0 96],
      s.marks.axes.get .pan = [4] ∧ (s.axes.get .pan).request = none ∧ (s.axes.get .pan).slipPending = false ∧
        s.positionAt .pan 4 = 10100 ∧ effectiveAccel (s.settings.axes.get .pan) (s.feed.grant.get .pan) = 96) ∧
    max ((97 : Int) - 96) (min (97 + 96) 0) ≠ 0 ∧ 11 * travel .pan < 10 * ((0 : Int) - 59401).natAbs := by decide +kernel

/-- A slip settled at this boundary in READY and in RETURN, by an axis that stood and by one that comes to rest; and a SLIP
request that waits for dark, once it stands and as it runs down. INTENSITY reads 0, and above it when lit, and an axis may
have rehome-in-dark clear. -/
theorem test_witness_slip_acted_on :
    let pend := withPan fun a => { a with slipPending := true }
    let asks := withPan fun a => { a with request := some .slip }
    let lit := fun (s : State) => { s with play := { s.play with intensity := { s.play.intensity with target := 1 } } }
    (∀ s ∈ [pend (inMode .ready (16 * 10100) 0), pend (inMode (.homing .returning) (16 * 10100) 0),
        pend (inMode .ready (16 * 10100) 96), pend (inMode (.homing .returning) (16 * 10100) (-96))],
      s.marks.axes.get .pan = [4] ∧ s.axes.pan.slipPending = true ∧
        followed s.settings.axes.pan (s.feed.grant.get .pan) s.axes.pan (s.positionAt .pan 4) = 0 ∧
        (s.axes.pan.carried 0).pos16 = s.positionAt .pan 4 * 16 ∧ s.intensityAt 4 = 0 ∧
        (lit s).intensityAt 4 = 1 ∧ s.settings.axes.pan.rehomeInDark = true) ∧
    (∀ s ∈ [asks (inMode .unsure 0 0), asks (inMode .unsure 0 960)],
      s.marks.axes.get .pan = [4] ∧ s.axes.pan.mode = .unsure ∧ s.axes.pan.request = some .slip) ∧
    (let bright := { running.settings.axes.pan with rehomeInDark := false }; bright.rehomeInDark = false) := by
  decide +kernel

theorem test_witness_overcurrent_trips :
    (following 160000 288).axes.pan.bridgeEnable = true ∧ (following 160000 288).axes.pan.mode ≠ .tripped ∧
      running.axes.pan.bridgeEnable = false := by decide

/-- An axis at its limit of speed, after the read. -/
theorem test_witness_speed_limit_kept : SpeedHolds (following 160000 1920) := by
  intro x
  cases x <;> exact ⟨by decide, by decide, fun h => by cases h⟩

/-- Neither axis, one that homes, one UNSURE without bridge enable, and one with it. -/
theorem test_witness_home_ask :
    (∀ n ∈ [0, 1, 2, 3, 4, 5, 254, 255], Taken running .homeAsk (heardFrom 12 [n])) ∧
    fieldAt (heardFrom 12 [4]).payload 0 1 % 4 = 0 ∧ fieldAt (heardFrom 12 [5]).payload 0 1 % 4 = 1 ∧
    fieldAt (heardFrom 12 [254]).payload 0 1 % 4 = 2 ∧
    running.axes.pan.bridgeEnable = false ∧ running.axes.pan.mode = .unsure ∧ (inMode .ready 0 0).axes.pan.bridgeEnable = true ∧
    (inMode (.homing .seek) 0 0).axes.pan.mode = .homing .seek := by
  unfold Taken Addressed RightSize; decide

/-- One scan above the trip level, the second above it, and one at it. -/
theorem test_witness_sense_scan :
    let s := fun started tripEnd => { atUptime 5 running with
      sense := { running.sense with tripScans := 1 }, feed := { running.feed with started := started, tripEnd := tripEnd } }
    (∀ t ∈ [s false none, s true none, s true (some 9)], t.sense.nextScan ≤ t.clock.thirds / 3000 ∧
      t.settings.tripLevel < 2 * (2001#12).toNat ∧ ¬ t.settings.tripLevel < 2 * (2000#12).toNat ∧
      min (t.sense.tripScans + 1) 2 = 2) ∧ (s true none).settings.circuit = 0 ∧ feeding.settings.circuit ≠ 0 ∧
      feeding.feed.started = true ∧ feeding.feed.tripEnd = none := by decide

theorem test_witness_sense_conversion : running.sense.nextScan ≤ (atUptime 5 running).clock.thirds / 3000 := by decide

/-- A standing axis; a pass held that is as wide as its tolerance lets it be and one count wider, with a deviation of the
slip tolerance and one more; and the modes that ignore an edge or take it for homing. -/
theorem test_witness_index_edge :
    let checks := fun rise fall => passing rise fall
    (inMode .ready 0 0).axes.pan.v16 = 0 ∧
    (∀ s ∈ [checks 2002 2808, checks 2003 2809, checks 2001 2808],
      s.axes.pan.v16 = 80 ∧ s.axes.pan.mode = .ready ∧ s.axes.pan.slipPending = false ∧
        s.settings.axes.pan.vaneTolerance = 6 ∧ s.settings.axes.pan.slipTolerance = 8 ∧
        s.settings.axes.pan.fallPos - s.settings.axes.pan.risePos = 800) ∧
    ((2808 : Int) - 2800).natAbs = 8 ∧ ((2809 : Int) - 2800).natAbs = 9 ∧
    (((2808 - 2002 : Int).natAbs : Int) - 800).natAbs = 6 ∧ (((2808 - 2001 : Int).natAbs : Int) - 800).natAbs = 7 ∧
    (∀ mode ∈ [AxisMode.unsure, .failed, .tripped, .homing .seek, .homing .backoff, .homing .approach],
      ∀ v ∈ [(-80 : Int), 80], (inMode mode 0 v).axes.pan.v16 ≠ 0 ∧ (inMode mode 0 v).axes.pan.mode = mode ∧
        (inMode mode 0 v).axes.pan.reference = none) := by decide

/-- NORMAL, nothing settling, on circuit 3: a claim below, above and at its demand of 800; and the lower's interval short by
1 ms and full. -/
theorem test_witness_feed_boundary :
    let s := fun (claim : Nat) (since : Option Nat) => { feeding with feed := { feeding.feed with claim := claim, belowSince := since } }
    (∀ t ∈ [s 300 none, s 801 none, s 801 (some 39952), s 801 (some 39953), s 800 none, s 700 none],
      t.marks.feed = [4] ∧ 1 ≤ t.settings.noteInterval ∧ t.feed.started = true ∧ t.feed.tripEnd = none ∧
        t.feed.settling = none ∧ t.settings.circuit ≠ 0 ∧ (answered (exec .feedBoundary t)).feed.demand = 800 ∧
        (answered (exec .feedBoundary t)).feed.allowance = 700 ∧ t.clock.thirds / 3000 = 39952 + 50) ∧
    ¬ running.feed.started = true := by decide +kernel

/-- A pool that covers both asks, one a count short of them, and each way the demand counts the axes. -/
theorem test_witness_feed_split :
    let f := fun usage pan tilt => { feeding.feed with usage := usage, counted := { pan := pan, tilt := tilt } }
    (∀ g ∈ [f 280 true true, f 279 true true, f 279 true false, f 279 false true],
      g.driverHot = false ∧ g.tripEnd = none ∧ g.emitterDemand = 0) ∧
    (120 - 40) + (90 - 30) = 280 - feeding.settings.base ∧ 0 < { feeding.feed with emitterDemand := 1 }.emitterDemand ∧
      ¬ ({ feeding.feed with driverHot := true }.driverHot = false) := by
  decide

/-- A raise cut to the allowance and one that is not, and a trip, each at its end. -/
theorem test_witness_feed_times :
    (∀ claim ∈ [701, 700], let s := { feeding with feed := { feeding.feed with
        claim := claim, settling := some { claim := 300, endTime := 40002 } } }
      s.feed.settling = some { claim := 300, endTime := 40002 } ∧ 40002 ≤ s.clock.thirds / 3000 ∧ s.settings.circuit ≠ 0) ∧
    { feeding.feed with tripEnd := some 40002 }.tripEnd = some 40002 ∧ running.settings.circuit = 0 := by decide

theorem test_witness_feed_and_colour_bounds_kept :
    FeedHolds { feeding with feed := { feeding.feed with grant := { pan := 120, tilt := 90 }, usage := 140, claim := 140 } } ∧
      ColourHolds (answered (exec .colourBoundary (atBoundary 4 coloured))) := by
  refine ⟨⟨by decide, by decide, ?_, by decide, by decide, fun _ => by decide, ?_⟩, by decide +kernel, by decide +kernel, ?_⟩
  · intro x; cases x <;> decide
  · intro x; cases x <;> decide
  · intro e; cases e <;> decide +kernel

/-- The read due on a part from the factory, on a record of station 40 on circuit 3, with no port UP and with both, and on one
of circuit 0 for station 250; and bridge enable due with a START request on both axes. -/
theorem test_witness_start_up :
    let at' := fun store => atUptime 1 { State.reset with store := store }
    (∀ store ∈ [[], recordOf40, [(0, 0xA5), (1, 0xC3), (10, 250)], [(0, 0xA5), (1, 0xC3), (10, 251)]],
      (at' store).setup.readDone = false ∧ (at' store).pins.resetHeld = false ∧ 1 ≤ (at' store).clock.thirds / 3000 ∧
        (store.length ≠ 0 → (at' store).storeByte 0 = 0xA5 ∧ (at' store).storeByte 1 = 0xC3)) ∧
    (at' recordOf40).storeByte 10 = 40 ∧ (at' [(0, 0xA5), (1, 0xC3), (10, 250)]).storeByte 10 = 250 ∧
    (at' [(0, 0xA5), (1, 0xC3), (10, 251)]).storeByte 10 = 251 ∧ (at' []).storeByte 0 = 0xFF ∧
    (at' recordOf40).readSettings.circuit = 3 ∧
    (let up := { at' recordOf40 with ports := running.ports };
      up.ports.a.up = true ∧ up.setup.readDone = false ∧ up.pins.resetHeld = false ∧ 1 ≤ up.clock.thirds / 3000 ∧
        (answered (exec .setupReadComplete up)).outbox.feedNote.entry.isSome) ∧ { running.feed with enabling := .due }.enabling = .due ∧
    running.axes.pan.request = some .start := by decide +kernel

/-- A SETUP's payload with the part's own serial, whatever it is. -/
def setupOf (page : Byte) : List Byte :=
  serialBytes ++ [page] ++ List.replicate 32 7

/-- The SETUP line held and pages 0 and 7, which it writes, and page 8, which it does not; and an unconfigured station. -/
theorem test_witness_setup_page :
    let held := { running with pins := { running.pins with setupLine := true } }
    let fresh := { atUptime 2 State.reset with setup := { State.reset.setup with readDone := true } }
    (∀ page ∈ [0, 7, 8], Addressed held (heardFrom 12 (setupOf page)) ∧ RightSize .setup (heardFrom 12 (setupOf page)) ∧
      (setupOf page).take 8 = serialBytes ∧ fieldAt (setupOf page) 8 1 = page.toNat) ∧
    Memory.wf held.store = true ∧ held.setup.readDone = true ∧ held.pins.setupLine = true ∧ running.pins.setupLine = false ∧
    fresh.setup.readDone = true ∧ fresh.setup.configured = false ∧ fresh.settings.station = 0 := by
  refine ⟨fun page h => ⟨?_, ⟨?_, ?_⟩, rfl, ?_⟩, by decide⟩
  · have : Addressed running (heardFrom 12 []) := by unfold Addressed; decide
    exact this
  · exact Nat.le_refl 41
  · exact Nat.le_refl 41
  · simp only [List.mem_cons, List.not_mem_nil, or_false] at h
    rcases h with rfl | rfl | rfl <;> decide

/-- R178: with the part's serial and the SETUP line held page 2 is written, but byte 2 of page 0 is not, and page 8 is
ignored. -/
theorem test_setup :
    let held := { running with pins := { running.pins with setupLine := true } }
    let sends := fun (page : Byte) => answered (exec (.setup (heardFrom 12 (setupOf page))) held)
    (sends 2).storeByte 95 = 7 ∧ (sends 0).storeByte 2 = Config.factorySerial 0 ∧ (sends 8).stats.setup.ignored = 1 := by
  intro held sends
  have takes : ∀ page, sends page
      = (held.heard (heardFrom 12 [])).takeSetup
        { serial := serialBytes, page := fieldAt (setupOf page) 8 1, data := List.replicate 32 7 } := fun _ => rfl
  refine ⟨?_, rfl, ?_⟩
  · rw [takes, State.takeSetup, if_pos (by simp [State.setupWrites]; decide)]
    decide +kernel
  · rw [takes, State.takeSetup, if_neg (by simp [State.setupWrites]; decide)]
    decide +kernel

/-- Pages 0 and 2, and a page of none with each flag. -/
theorem test_witness_status_ask :
    (∀ p ∈ [[0, 0], [1, 0], [2, 0], [3, 1], [255, 6], [1, 7]], Taken running .statusAsk (heardFrom 12 p)) ∧
    statusPageOf 0 ≠ none ∧ statusPageOf 1 ≠ none ∧ statusPageOf 2 ≠ none ∧ statusPageOf 3 = none ∧ running.ports.a.up = true := by
  unfold Taken Addressed RightSize; decide

theorem test_witness_unconfigured_stays_quiet :
    QuietWhenUnconfigured { atUptime 7 State.reset with setup := { State.reset.setup with readDone := true } } := by
  refine ⟨fun h => absurd h (by decide), fun _ => ?_⟩
  refine ⟨rfl, rfl, rfl, rfl, rfl, rfl, fun c => ?_, rfl, rfl, rfl, rfl, rfl, rfl, rfl, rfl, fun x => ?_⟩
  · cases c <;> rfl
  · cases x <;> exact ⟨rfl, rfl, rfl, rfl⟩

end Sys2Proof.Tests
end

/-! What the Link Interface's updates leave of a port, and which operations leave every receive assembler and relay
FIFO as they are: a placement reaches a port only to supersede its transmission (R18). -/

namespace Sys2Proof.Machine

variable (s : State)

/-! ### One part of one port -/

@[simp] theorem State.mapFifo_ports (p : Port) (f : RelayFifo → RelayFifo) :
    (s.mapFifo p f).ports = s.ports.set p { s.ports.get p with fifo := f (s.ports.get p).fifo } := rfl

@[simp] theorem State.mapAsm_ports (p : Port) (f : Assembler → Assembler) :
    (s.mapAsm p f).ports = s.ports.set p { s.ports.get p with asm := f (s.ports.get p).asm } := rfl

@[simp] theorem State.mapTx_ports (p : Port) (f : Transmitter → Transmitter) :
    (s.mapTx p f).ports = s.ports.set p { s.ports.get p with tx := f (s.ports.get p).tx } := rfl

@[simp] theorem State.mapTx_receivers (p : Port) (f : Transmitter → Transmitter) (q : Port) :
    ((s.mapTx p f).ports.get q).asm = (s.ports.get q).asm ∧
      ((s.mapTx p f).ports.get q).fifo = (s.ports.get q).fifo := by
  rw [State.mapTx_ports, PerPort.get_set]
  split <;> simp [*]

@[simp] theorem State.startChoice_receivers (p : Port) (c : Choice) (q : Port) :
    ((s.startChoice p c).ports.get q).asm = (s.ports.get q).asm ∧
      ((s.startChoice p c).ports.get q).fifo = (s.ports.get q).fifo := by
  cases c with
  | relayed r => exact s.mapTx_receivers p _ q
  | own c ahead => exact s.mapTx_receivers p _ q
  | nothing => exact ⟨rfl, rfl⟩

@[simp] theorem State.ownSent_receivers (p : Port) (q : Port) :
    ((s.ownSent p).ports.get q).asm = (s.ports.get q).asm ∧
      ((s.ownSent p).ports.get q).fifo = (s.ports.get q).fifo := by
  have finished := s.mapTx_receivers p Transmitter.finish q
  unfold State.ownSent
  split
  · rw [(State.joinSent_frame _ p _).2.2.1]
    exact finished
  · exact finished
  · exact ⟨rfl, rfl⟩
  · exact ⟨rfl, rfl⟩

/-! ### Placements, and what makes them -/

@[simp] theorem State.supersede_receivers (c : FrameClass) (q : Port) :
    ((s.supersede c).ports.get q).asm = (s.ports.get q).asm ∧
      ((s.supersede c).ports.get q).fifo = (s.ports.get q).fifo := by
  simp only [State.supersede_port]
  simp

@[simp] theorem State.place_receivers (c : FrameClass) (d : Byte) (b : List Byte) (q : Port) :
    ((s.place c d b).ports.get q).asm = (s.ports.get q).asm ∧
      ((s.place c d b).ports.get q).fifo = (s.ports.get q).fifo := by
  simp only [State.place]
  (repeat' split) <;> simp

@[simp] theorem State.openGather_receivers (a b : PerAxis Int) (m g n : Nat) (t d : Int) (q : Port) :
    ((s.openGather a b m g n t d).ports.get q).asm = (s.ports.get q).asm ∧
      ((s.openGather a b m g n t d).ports.get q).fifo = (s.ports.get q).fifo := by
  simp only [State.openGather]
  (repeat' split) <;> simp

@[simp] theorem State.setPosition_receivers (c : Cue) (x : PosPart) (t : Int) (u : Bool) (q : Port) :
    ((s.setPosition c x t u).ports.get q).asm = (s.ports.get q).asm ∧
      ((s.setPosition c x t u).ports.get q).fifo = (s.ports.get q).fifo := by
  simp only [State.setPosition]
  (repeat' split) <;> simp

@[simp] theorem State.takeGo_receivers (c : Cue) (n : Nat) (t k : Int) (u : Bool) (q : Port) :
    ((s.takeGo c n t k u).ports.get q).asm = (s.ports.get q).asm ∧
      ((s.takeGo c n t k u).ports.get q).fifo = (s.ports.get q).fifo := by
  simp only [State.takeGo]
  (repeat' split) <;> simp

@[simp] theorem State.go_receivers (n : Nat) (t k : Int) (o : Nat) (u : Bool) (q : Port) :
    ((s.go n t k o u).ports.get q).asm = (s.ports.get q).asm ∧
      ((s.go n t k o u).ports.get q).fifo = (s.ports.get q).fifo := by
  simp only [State.go]
  (repeat' split) <;> simp

@[simp] theorem State.syncedGo_receivers (n : Nat) (t : Int) (o : Nat) (q : Port) :
    ((s.syncedGo n t o).ports.get q).asm = (s.ports.get q).asm ∧
      ((s.syncedGo n t o).ports.get q).fifo = (s.ports.get q).fifo := by
  simp only [State.syncedGo]
  (repeat' split) <;> simp

@[simp] theorem State.unsyncedGo_receivers (n : Nat) (t : Int) (o : Nat) (q : Port) :
    ((s.unsyncedGo n t o).ports.get q).asm = (s.ports.get q).asm ∧
      ((s.unsyncedGo n t o).ports.get q).fifo = (s.ports.get q).fifo := by
  simp only [State.unsyncedGo]
  simp

@[simp] theorem State.takeCueGo_receivers (f : TickFields) (o : Nat) (q : Port) :
    ((s.takeCueGo f o).ports.get q).asm = (s.ports.get q).asm ∧
      ((s.takeCueGo f o).ports.get q).fifo = (s.ports.get q).fifo := by
  simp only [State.takeCueGo]
  (repeat' split) <;> simp

@[simp] theorem State.takePendingGo_receivers (g : PendingGo) (q : Port) :
    ((s.takePendingGo g).ports.get q).asm = (s.ports.get q).asm ∧
      ((s.takePendingGo g).ports.get q).fifo = (s.ports.get q).fifo := by
  simp only [State.takePendingGo]
  simp

@[simp] theorem State.takeFollow_receivers (f : FollowTimer) (q : Port) :
    ((s.takeFollow f).ports.get q).asm = (s.ports.get q).asm ∧
      ((s.takeFollow f).ports.get q).fifo = (s.ports.get q).fifo := by
  simp only [State.takeFollow]
  (repeat' split) <;> simp

@[simp] theorem State.sendMatchNote_receivers (owed : Bool) (q : Port) :
    ((s.sendMatchNote owed).ports.get q).asm = (s.ports.get q).asm ∧
      ((s.sendMatchNote owed).ports.get q).fifo = (s.ports.get q).fifo := by
  simp only [State.sendMatchNote]
  simp

@[simp] theorem State.placeMatchNote_receivers (q : Port) :
    (s.placeMatchNote.ports.get q).asm = (s.ports.get q).asm ∧
      (s.placeMatchNote.ports.get q).fifo = (s.ports.get q).fifo := by
  simp only [State.placeMatchNote]
  simp

@[simp] theorem State.colourBoundary_receivers (b : Int) (q : Port) :
    ((s.colourBoundary b).ports.get q).asm = (s.ports.get q).asm ∧
      ((s.colourBoundary b).ports.get q).fifo = (s.ports.get q).fifo := by
  simp only [State.colourBoundary]
  (repeat' split) <;> simp

@[simp] theorem State.sendFeedNote_receivers (owed : Bool) (q : Port) :
    ((s.sendFeedNote owed).ports.get q).asm = (s.ports.get q).asm ∧
      ((s.sendFeedNote owed).ports.get q).fifo = (s.ports.get q).fifo := by
  simp only [State.sendFeedNote]
  (repeat' split) <;> simp

@[simp] theorem State.placeFeedNote_receivers (q : Port) :
    (s.placeFeedNote.ports.get q).asm = (s.ports.get q).asm ∧
      (s.placeFeedNote.ports.get q).fifo = (s.ports.get q).fifo := by
  simp only [State.placeFeedNote]
  simp

@[simp] theorem State.lowerClaim_receivers (q : Port) :
    (s.lowerClaim.ports.get q).asm = (s.ports.get q).asm ∧
      (s.lowerClaim.ports.get q).fifo = (s.ports.get q).fifo := by
  simp only [State.lowerClaim]
  (repeat' split) <;> simp

@[simp] theorem State.raiseClaim_receivers (q : Port) :
    (s.raiseClaim.ports.get q).asm = (s.ports.get q).asm ∧
      (s.raiseClaim.ports.get q).fifo = (s.ports.get q).fifo := by
  simp only [State.raiseClaim]
  (repeat' split) <;> simp

@[simp] theorem State.feedBoundary_receivers (q : Port) :
    (s.feedBoundary.ports.get q).asm = (s.ports.get q).asm ∧
      (s.feedBoundary.ports.get q).fifo = (s.ports.get q).fifo := by
  simp only [State.feedBoundary]
  (repeat' split) <;> simp

@[simp] theorem State.settle_receivers (q : Port) :
    (s.settle.ports.get q).asm = (s.ports.get q).asm ∧
      (s.settle.ports.get q).fifo = (s.ports.get q).fifo := by
  simp only [State.settle]
  (repeat' split) <;> simp

@[simp] theorem State.tripFeed_receivers (q : Port) :
    (s.tripFeed.ports.get q).asm = (s.ports.get q).asm ∧
      (s.tripFeed.ports.get q).fifo = (s.ports.get q).fifo := by
  simp only [State.tripFeed]
  simp

@[simp] theorem State.overcurrentReport_receivers (q : Port) :
    (s.overcurrentReport.ports.get q).asm = (s.ports.get q).asm ∧
      (s.overcurrentReport.ports.get q).fifo = (s.ports.get q).fifo := by
  simp only [State.overcurrentReport]
  (repeat' split) <;> simp

@[simp] theorem State.endTrip_receivers (q : Port) :
    (s.endTrip.ports.get q).asm = (s.ports.get q).asm ∧
      (s.endTrip.ports.get q).fifo = (s.ports.get q).fifo := by
  simp only [State.endTrip]
  simp

@[simp] theorem State.startFeed_receivers (q : Port) :
    (s.startFeed.ports.get q).asm = (s.ports.get q).asm ∧
      (s.startFeed.ports.get q).fifo = (s.ports.get q).fifo := by
  simp only [State.startFeed]
  (repeat' split) <;> simp

@[simp] theorem State.scan_receivers (e d f : BitVec 12) (q : Port) :
    ((s.scan e d f).ports.get q).asm = (s.ports.get q).asm ∧
      ((s.scan e d f).ports.get q).fifo = (s.ports.get q).fifo := by
  simp only [State.scan]
  (repeat' split) <;> simp

@[simp] theorem State.placeBeacon_receivers (q : Port) :
    (s.placeBeacon.ports.get q).asm = (s.ports.get q).asm ∧
      (s.placeBeacon.ports.get q).fifo = (s.ports.get q).fifo := by
  simp only [State.placeBeacon]
  simp

@[simp] theorem State.beaconTick_receivers (q : Port) :
    (s.beaconTick.ports.get q).asm = (s.ports.get q).asm ∧
      (s.beaconTick.ports.get q).fifo = (s.ports.get q).fifo := by
  simp only [State.beaconTick]
  simp

@[simp] theorem State.startStation_receivers (q : Port) :
    (s.startStation.ports.get q).asm = (s.ports.get q).asm ∧
      (s.startStation.ports.get q).fifo = (s.ports.get q).fifo := by
  simp only [State.startStation]
  simp

@[simp] theorem State.completeRead_receivers (q : Port) :
    (s.completeRead.ports.get q).asm = (s.ports.get q).asm ∧
      (s.completeRead.ports.get q).fifo = (s.ports.get q).fifo := by
  simp only [State.completeRead]
  (repeat' split) <;> simp

@[simp] theorem State.reply_receivers (x : StatusPage) (o : Byte) (q : Port) :
    ((s.reply x o).ports.get q).asm = (s.ports.get q).asm ∧
      ((s.reply x o).ports.get q).fifo = (s.ports.get q).fifo := by
  simp only [State.reply]
  simp

@[simp] theorem State.takeStatusAsk_receivers (a : StatusAskFields) (o : Byte) (q : Port) :
    ((s.takeStatusAsk a o).ports.get q).asm = (s.ports.get q).asm ∧
      ((s.takeStatusAsk a o).ports.get q).fifo = (s.ports.get q).fifo := by
  simp only [State.takeStatusAsk]
  (repeat' split) <;> simp

end Sys2Proof.Machine

/-! The invariant of the relay FIFOs (R12 to R14), as one of each receive assembler with the FIFO its frames are copied
into, and every step keeps it. -/

namespace Sys2Proof.Machine

/-! ### An assembler and the FIFO of the port opposite -/

/-- A receive assembler and the relay FIFO its frames are copied into: the FIFO's part of `FifosHold` and the
assembler's. -/
def CopyFits (a : Assembler) (f : RelayFifo) : Prop :=
  f.used ≤ 512 ∧
    (∀ bs, f.copy = some bs →
      a.state = .body ∧ bs = a.bytes ∧ 7 ≤ bs.length ∧ bs.length ≤ a.declared ∧ f.used + a.declared ≤ 512) ∧
    (a.state = .idle → a.bytes = []) ∧ (a.state = .header → a.bytes.length ≤ 6)

/-- The copies into the FIFO of port `q` are of the frames received on the port opposite. -/
def CopyFitsAt (s : State) (q : Port) : Prop :=
  CopyFits (s.ports.get q).asm (s.ports.get (otherPort q)).fifo

theorem fifosHold_iff {s : State} : FifosHold s ↔ ∀ q, CopyFitsAt s q := by
  constructor
  · intro h q
    obtain ⟨used, copy, -, -⟩ := h (otherPort q)
    obtain ⟨-, -, idle, header⟩ := h q
    rw [otherPort_otherPort] at copy
    refine ⟨used, fun bs hbs => ?_, idle, header⟩
    obtain ⟨body, rfl, h7, hlen, room⟩ := copy bs hbs
    exact ⟨body, rfl, h7, hlen, room⟩
  · intro h p
    obtain ⟨used, copy, -, -⟩ := h (otherPort p)
    obtain ⟨-, -, idle, header⟩ := h p
    rw [otherPort_otherPort] at used copy
    refine ⟨used, fun bs hbs => ?_, idle, header⟩
    obtain ⟨body, rfl, h7, hlen, room⟩ := copy bs hbs
    exact ⟨body, rfl, h7, hlen, room⟩

/-- An operation that leaves every assembler and relay FIFO keeps the invariant. -/
theorem FifosHold.of_receivers {s t : State} (h : FifosHold s)
    (same : ∀ q, (t.ports.get q).asm = (s.ports.get q).asm ∧ (t.ports.get q).fifo = (s.ports.get q).fifo) :
    FifosHold t := by
  rw [fifosHold_iff] at h ⊢
  intro q
  rw [CopyFitsAt, (same q).1, (same (otherPort q)).2]
  exact h q

/-- An operation that leaves the ports keeps the invariant. -/
theorem FifosHold.of_ports {s t : State} (h : FifosHold s) (same : t.ports = s.ports) : FifosHold t :=
  h.of_receivers fun q => by rw [same]; exact ⟨rfl, rfl⟩

/-- What a port receives, and the FIFO opposite, are all that a character or a close can change. -/
theorem FifosHold.of_pair {s t : State} {p : Port} (h : FifosHold s) (pair : CopyFitsAt t p)
    (asm : (t.ports.get (otherPort p)).asm = (s.ports.get (otherPort p)).asm)
    (fifo : (t.ports.get p).fifo = (s.ports.get p).fifo) : FifosHold t := by
  rw [fifosHold_iff] at h ⊢
  intro q
  by_cases hq : q = p
  · exact hq ▸ pair
  · obtain rfl : q = otherPort p := by cases p <;> cases q <;> simp_all [otherPort]
    have other := h (otherPort p)
    rw [CopyFitsAt, otherPort_otherPort] at other ⊢
    rw [asm, fifo]
    exact other

/-! ### What each event does to the pair -/

variable {a b : Assembler} {f g : RelayFifo}

/-- With no copy open the assembler is free to go on in any state that stores what the state allows. -/
theorem CopyFits.of_no_copy (used : f.used ≤ 512) (copy : f.copy = none) (idle : a.state = .idle → a.bytes = [])
    (header : a.state = .header → a.bytes.length ≤ 6) : CopyFits a f :=
  ⟨used, by simp [copy], idle, header⟩

/-- A copy is open only while its frame's body arrives. -/
theorem CopyFits.no_copy (h : CopyFits a f) (state : a.state ≠ .body) : f.copy = none := by
  obtain ⟨-, copy, -, -⟩ := h
  rcases hc : f.copy with _ | bs
  · rfl
  · exact absurd (copy bs hc).1 state

/-- The invariant reads no more of an assembler than its state and the characters stored. -/
theorem CopyFits.congr (h : CopyFits a f) (state : b.state = a.state) (bytes : b.bytes = a.bytes) : CopyFits b f := by
  unfold CopyFits Assembler.declared Assembler.header at *
  rw [state, bytes]
  exact h

/-- A FIFO that holds fewer bytes, its copy kept or given up, keeps the invariant. -/
theorem CopyFits.shrink (h : CopyFits a f) (used : g.used ≤ f.used) (copy : g.copy = f.copy ∨ g.copy = none) :
    CopyFits a g := by
  obtain ⟨u, c, idle, header⟩ := h
  refine ⟨by omega, fun bs hbs => ?_, idle, header⟩
  rcases copy with copy | copy
  · obtain ⟨body, eq, h7, len, room⟩ := c bs (copy ▸ hbs)
    exact ⟨body, eq, h7, len, by omega⟩
  · simp [copy] at hbs

/-- IDLE takes a character: a header of one character, or a discard (R6). -/
theorem CopyFits.lead (h : CopyFits a f) (hs : a.state = .idle) (c : Byte) :
    CopyFits (if c = lead then (a.store c).enter .header else a.enter .discard) f := by
  have copy := h.no_copy (by simp [hs])
  obtain ⟨used, -, idle, -⟩ := h
  split
  · exact .of_no_copy used copy (by simp [Assembler.enter]) (by simp [Assembler.enter, Assembler.store, idle hs])
  · exact .of_no_copy used copy (by simp [Assembler.enter]) (by simp [Assembler.enter])

/-- An element of the first of two lists is that of the two together. -/
theorem getD_append_of_lt {xs : List α} (ys : List α) {i : Nat} {d : α} (h : i < xs.length) :
    (xs ++ ys).getD i d = xs.getD i d := by
  rw [List.getD_eq_getElem?_getD, List.getD_eq_getElem?_getD, List.getElem?_append_left h]

/-- The declared count stands once the seventh character has arrived. -/
theorem Assembler.declared_store (a : Assembler) (c : Byte) (h : 7 ≤ a.bytes.length) :
    (a.store c).declared = a.declared := by
  simp only [declared, header, store]
  rw [getD_append_of_lt _ (by omega)]

/-- BODY stores a character that its frame declares, in the copy as well (R13). -/
theorem CopyFits.body (h : CopyFits a f) (hs : a.state = .body) (c : Byte) (more : a.bytes.length < a.declared) :
    CopyFits (a.store c) (f.append c) := by
  obtain ⟨used, copy, -, -⟩ := h
  refine ⟨used, fun bs hbs => ?_, by simp [Assembler.store, hs], by simp [Assembler.store, hs]⟩
  obtain ⟨old, hold, rfl⟩ : ∃ old, f.copy = some old ∧ old ++ [c] = bs := by
    simpa [RelayFifo.append] using hbs
  obtain ⟨-, rfl, h7, -, room⟩ := copy old hold
  rw [a.declared_store c h7]
  refine ⟨hs, rfl, ?_, ?_, room⟩ <;> simp <;> omega

/-- A frame given up: the assembler discards or is IDLE, and the copy is rolled back (R14). -/
theorem CopyFits.rollback (h : CopyFits a f) (idle : b.state = .idle → b.bytes = []) (header : b.state ≠ .header) :
    CopyFits b f.rollback :=
  .of_no_copy h.1 rfl idle fun e => absurd e header

/-- The copy of a whole frame is committed as the assembler returns to IDLE (R14): the room it was given at the header
point is the room it takes. -/
theorem CopyFits.commit (h : CopyFits a f) (whole : a.bytes.length = a.declared) (ended : Nat)
    (idle : b.state = .idle) (bytes : b.bytes = []) : CopyFits b (f.commit ended) := by
  obtain ⟨used, copy, -, -⟩ := h
  rcases hc : f.copy with _ | bs
  · have : f.commit ended = f := by simp [RelayFifo.commit, hc]
    rw [this]
    exact .of_no_copy used hc (fun _ => bytes) (by simp [idle])
  · obtain ⟨-, rfl, -, -, room⟩ := copy bs hc
    refine .of_no_copy ?_ (by simp [RelayFifo.commit, hc]) (fun _ => bytes) (by simp [idle])
    simp only [RelayFifo.used] at room
    simp [RelayFifo.commit, hc, RelayFifo.used]
    omega

/-! ### The header point (R11, R13) -/

/-- A copy is opened only with room for all that its frame declares (R13). -/
theorem State.room_of_openCopy {s : State} {p : Port} {a : Assembler} (h : s.relayDecision p a = .openCopy) :
    a.declared ≤ (s.ports.get (otherPort p)).fifo.free := by
  refine Nat.le_of_not_lt fun full => ?_
  rw [State.relayDecision, if_pos full] at h
  repeat' split at h
  all_goals cases h

/-- At the header point the characters stored are the seven of the header, and no copy is open yet. -/
theorem CopyFitsAt.decideRelay {s : State} {p : Port} (h : CopyFitsAt s p)
    (state : (s.ports.get p).asm.state = .body)
    (bytes : (s.ports.get p).asm.bytes.length = 7) : CopyFitsAt (s.decideRelay p) p := by
  unfold CopyFitsAt at h ⊢
  simp only [State.decideRelay]
  cases decision : s.relayDecision p (s.ports.get p).asm with
  | noCopy => exact h
  | hopLimit =>
    simp only [State.mapAsm_ports, PerPort.get_set_self, PerPort.get_set_of_ne _ _ (otherPort_ne p)]
    exact h.congr rfl rfl
  | relayFull => exact h
  | openCopy =>
    have room := s.room_of_openCopy decision
    have used := h.1
    have declared : (s.ports.get p).asm.declared = 9 + ((s.ports.get p).asm.header 6).toNat := rfl
    simp only [RelayFifo.free] at room
    simp only [State.mapFifo_ports, PerPort.get_set_self, PerPort.get_set_of_ne _ _ (ne_otherPort p)]
    refine ⟨used, fun bs hbs => ?_, by simp [state], by simp [state]⟩
    obtain rfl : (s.ports.get p).asm.bytes = bs := by simpa [RelayFifo.openCopy] using hbs
    exact ⟨state, rfl, by omega, by omega, by simp only [RelayFifo.openCopy, RelayFifo.used] at *; omega⟩

/-! ### A character or a close reaches one pair only -/

@[simp] theorem State.decideRelay_otherPair (s : State) (p : Port) :
    ((s.decideRelay p).ports.get (otherPort p)).asm = (s.ports.get (otherPort p)).asm ∧
      ((s.decideRelay p).ports.get p).fifo = (s.ports.get p).fifo := by
  simp only [State.decideRelay]
  (repeat' split) <;> simp

@[simp] theorem State.takeLead_otherPair (s : State) (p : Port) (c : Byte) :
    ((s.takeLead p c).ports.get (otherPort p)).asm = (s.ports.get (otherPort p)).asm ∧
      ((s.takeLead p c).ports.get p).fifo = (s.ports.get p).fifo := by
  simp [State.takeLead]

@[simp] theorem State.takeHeader_otherPair (s : State) (p : Port) (c : Byte) :
    ((s.takeHeader p c).ports.get (otherPort p)).asm = (s.ports.get (otherPort p)).asm ∧
      ((s.takeHeader p c).ports.get p).fifo = (s.ports.get p).fifo := by
  simp only [State.takeHeader]
  (repeat' split) <;> simp

@[simp] theorem State.takeBody_otherPair (s : State) (p : Port) (c : Byte) :
    ((s.takeBody p c).ports.get (otherPort p)).asm = (s.ports.get (otherPort p)).asm ∧
      ((s.takeBody p c).ports.get p).fifo = (s.ports.get p).fifo := by
  simp only [State.takeBody]
  (repeat' split) <;> simp

@[simp] theorem State.hearCharacter_otherPair (s : State) (p : Port) (b : Bool) :
    ((s.hearCharacter p b).ports.get (otherPort p)).asm = (s.ports.get (otherPort p)).asm ∧
      ((s.hearCharacter p b).ports.get p).fifo = (s.ports.get p).fifo := by
  simp [State.hearCharacter]

@[simp] theorem State.takeCharacter_otherPair (s : State) (p : Port) (c : Byte) (b : Bool) :
    ((s.takeCharacter p c b).ports.get (otherPort p)).asm = (s.ports.get (otherPort p)).asm ∧
      ((s.takeCharacter p c b).ports.get p).fifo = (s.ports.get p).fifo := by
  simp only [State.takeCharacter]
  (repeat' split) <;> simp

@[simp] theorem State.resetAsm_otherPair (s : State) (p : Port) :
    ((s.resetAsm p).ports.get (otherPort p)).asm = (s.ports.get (otherPort p)).asm ∧
      ((s.resetAsm p).ports.get p).fifo = (s.ports.get p).fifo := by
  simp [State.resetAsm]

@[simp] theorem State.portComesUp_otherPair (s : State) (p : Port) :
    ((s.portComesUp p).ports.get (otherPort p)).asm = (s.ports.get (otherPort p)).asm ∧
      ((s.portComesUp p).ports.get p).fifo = (s.ports.get p).fifo := by
  simp [State.portComesUp]

@[simp] theorem State.discardFrame_otherPair (s : State) (p : Port) :
    ((s.discardFrame p).ports.get (otherPort p)).asm = (s.ports.get (otherPort p)).asm ∧
      ((s.discardFrame p).ports.get p).fifo = (s.ports.get p).fifo := by
  simp [State.discardFrame]

@[simp] theorem State.ownEcho_otherPair (s : State) (p : Port) :
    ((s.ownEcho p).ports.get (otherPort p)).asm = (s.ports.get (otherPort p)).asm ∧
      ((s.ownEcho p).ports.get p).fifo = (s.ports.get p).fifo := by
  simp [State.ownEcho]

@[simp] theorem State.settleCopy_otherPair (s : State) (p : Port) (a : Assembler) :
    ((s.settleCopy p a).ports.get (otherPort p)).asm = (s.ports.get (otherPort p)).asm ∧
      ((s.settleCopy p a).ports.get p).fifo = (s.ports.get p).fifo := by
  simp only [State.settleCopy]
  (repeat' split) <;> simp

/-! ### A character (R6) -/

theorem CopyFitsAt.hearCharacter {s : State} {p : Port} (h : CopyFitsAt s p) (stopBit : Bool) :
    CopyFitsAt (s.hearCharacter p stopBit) p := by
  simp only [CopyFitsAt, State.hearCharacter, State.mapPort_ports, PerPort.get_set_self,
    PerPort.get_set_of_ne _ _ (otherPort_ne p)]
  exact CopyFits.congr h rfl rfl

theorem CopyFitsAt.takeLead {s : State} {p : Port} (h : CopyFitsAt s p) (hs : (s.ports.get p).asm.state = .idle)
    (c : Byte) : CopyFitsAt (s.takeLead p c) p := by
  simp only [CopyFitsAt, State.takeLead, State.mapAsm_ports, PerPort.get_set_self,
    PerPort.get_set_of_ne _ _ (otherPort_ne p)]
  exact CopyFits.lead h hs c

theorem CopyFitsAt.takeBody {s : State} {p : Port} (h : CopyFitsAt s p) (hs : (s.ports.get p).asm.state = .body)
    (c : Byte) : CopyFitsAt (s.takeBody p c) p := by
  simp only [CopyFitsAt, State.takeBody]
  split
  · next more => simpa using CopyFits.body h hs c more
  · simpa using CopyFits.rollback h (b := (s.ports.get p).asm.enter .discard) (by simp [Assembler.enter])
      (by simp [Assembler.enter])

theorem CopyFitsAt.takeHeader {s : State} {p : Port} (h : CopyFitsAt s p) (hs : (s.ports.get p).asm.state = .header)
    (c : Byte) : CopyFitsAt (s.takeHeader p c) p := by
  have copy := h.no_copy (by simp [hs])
  obtain ⟨used, -, -, six⟩ := h
  simp only [State.takeHeader]
  split
  · next early =>
    simp only [CopyFitsAt, State.mapAsm_ports, PerPort.get_set_self, PerPort.get_set_of_ne _ _ (otherPort_ne p)]
    exact .of_no_copy used copy (by simp [Assembler.store, hs]) (fun _ => by omega)
  · next seventh =>
    split
    · simp only [CopyFitsAt, State.mapAsm_ports, PerPort.get_set_self, PerPort.get_set_of_ne _ _ (otherPort_ne p)]
      exact .of_no_copy used copy (by simp [Assembler.enter]) (by simp [Assembler.enter])
    · have seven : ((s.ports.get p).asm.store c).bytes.length = 7 := by
        have := six hs
        simp only [Assembler.store, List.length_append, List.length_singleton] at seventh ⊢
        omega
      refine CopyFitsAt.decideRelay ?_ (by simp [Assembler.enter]) (by simpa [Assembler.enter])
      simp only [CopyFitsAt, State.mapAsm_ports, PerPort.get_set_self, PerPort.get_set_of_ne _ _ (otherPort_ne p)]
      exact .of_no_copy used copy (by simp [Assembler.enter]) (by simp [Assembler.enter])

theorem CopyFitsAt.takeCharacter {s : State} {p : Port} (h : CopyFitsAt s p) (c : Byte) (stopBit : Bool) :
    CopyFitsAt (s.takeCharacter p c stopBit) p := by
  have heard := h.hearCharacter stopBit
  have state : ((s.hearCharacter p stopBit).ports.get p).asm.state = (s.ports.get p).asm.state := by
    simp [State.hearCharacter]
  simp only [State.takeCharacter]
  cases hs : (s.ports.get p).asm.state with
  | idle => exact heard.takeLead (state.trans hs) c
  | header => exact heard.takeHeader (state.trans hs) c
  | body => exact heard.takeBody (state.trans hs) c
  | discard => exact heard

/-! ### The close of a frame (R2, R14) -/

/-- The assembler as a close leaves it: in IDLE, with no character. -/
theorem State.resetAsm_asm (s : State) (p : Port) :
    ((s.resetAsm p).ports.get p).asm = { Assembler.initial with lastEnd := (s.ports.get p).asm.lastEnd } := by
  simp [State.resetAsm]

/-- The FIFO a frame is copied into stands while its assembler returns to IDLE. -/
theorem State.resetAsm_fifo (s : State) (p q : Port) : ((s.resetAsm p).ports.get q).fifo = (s.ports.get q).fifo := by
  simp only [State.resetAsm, State.mapAsm_ports, PerPort.get_set]
  split <;> simp [*]

/-- A port that comes UP keeps its assembler and FIFO. -/
@[simp] theorem State.portComesUp_receivers (s : State) (p q : Port) :
    ((s.portComesUp p).ports.get q).asm = (s.ports.get q).asm ∧
      ((s.portComesUp p).ports.get q).fifo = (s.ports.get q).fifo := by
  simp only [State.portComesUp, State.mapPort_ports, PerPort.get_set]
  split <;> simp [*]

theorem FifosHold.closeDiscarded {s : State} (h : FifosHold s) (p : Port) :
    FifosHold ((s.resetAsm p).discardFrame p) := by
  refine h.of_pair (p := p) ?_ (by simp) (by simp)
  simp only [CopyFitsAt, State.discardFrame, State.tallyPort_ports, State.mapFifo_ports, PerPort.get_set_self,
    PerPort.get_set_of_ne _ _ (ne_otherPort p), State.resetAsm_asm, State.resetAsm_fifo]
  exact (fifosHold_iff.mp h p).rollback (fun _ => rfl) nofun

theorem FifosHold.closeEcho {s : State} (h : FifosHold s) (p : Port) :
    FifosHold (((s.resetAsm p).portComesUp p).ownEcho p) := by
  refine h.of_pair (p := p) ?_ (by simp) (by simp)
  simp only [CopyFitsAt, State.ownEcho, State.tallyPort_ports, State.mapFifo_ports, PerPort.get_set_self,
    PerPort.get_set_of_ne _ _ (ne_otherPort p), State.portComesUp_receivers, State.resetAsm_asm, State.resetAsm_fifo]
  exact (fifosHold_iff.mp h p).rollback (fun _ => rfl) nofun

/-- A frame that passes has all the characters it declares (R7). -/
theorem Assembler.length_of_passes {a : Assembler} (h : a.passes = true) : a.bytes.length = a.declared := by
  simp only [passes, Bool.and_eq_true, beq_iff_eq] at h
  exact h.1.1.1.2

theorem FifosHold.closeSettled {s : State} (h : FifosHold s) (p : Port)
    (whole : (s.ports.get p).asm.bytes.length = (s.ports.get p).asm.declared) :
    FifosHold (((s.resetAsm p).portComesUp p).settleCopy p (s.ports.get p).asm) := by
  refine h.of_pair (p := p) ?_ (by simp) (by simp)
  have committed := (fifosHold_iff.mp h p).commit
    (b := { Assembler.initial with lastEnd := (s.ports.get p).asm.lastEnd }) whole (s.ports.get p).asm.lastEnd rfl rfl
  simp only [CopyFitsAt, State.settleCopy]
  split <;>
  simpa only [State.tallyPort_ports, State.mapFifo_ports, PerPort.get_set_self,
    PerPort.get_set_of_ne _ _ (ne_otherPort p), State.portComesUp_receivers, State.resetAsm_asm, State.resetAsm_fifo]

/-! ### The consumers (R10) -/

theorem fifosHold_reset : FifosHold State.reset := by
  intro p
  cases p <;> exact ⟨by decide, nofun, fun _ => rfl, nofun⟩

theorem FifosHold.takeCharacter {s : State} (h : FifosHold s) (p : Port) (c : Byte) (stopBit : Bool) :
    FifosHold (s.takeCharacter p c stopBit) :=
  h.of_pair ((fifosHold_iff.mp h p).takeCharacter c stopBit) (by simp) (by simp)

theorem FifosHold.deviceReset (s : State) : FifosHold s.deviceReset :=
  fifosHold_reset.of_ports rfl

theorem FifosHold.handOn {s : State} (h : FifosHold s) {k : FrameKind} {f : Frame} {g : State → State}
    (taken : FifosHold (s.heard f) → FifosHold (g (s.heard f))) : FifosHold (s.handOn k f g) :=
  handOn_keeps h (fun _ _ _ h => h.of_ports rfl) fun _ _ => taken

/-- A consumer places a frame at most, or resets the block. -/
theorem FifosHold.consume {s : State} (h : FifosHold s) (k : Option FrameKind) (f : Frame) :
    FifosHold (s.consume k f) := by
  cases k with
  | none => exact h
  | some k =>
    cases k with
    | beacon => exact h.handOn fun h => h.of_ports (by simp)
    | moveNote => exact h.handOn fun h => h.of_ports (by simp)
    | matchNote => exact h.handOn fun h => h.of_ports (by simp)
    | feedNote => exact h.handOn fun h => h.of_ports (by simp)
    | statusReply => exact h.handOn id
    | cueLoad => exact h.handOn fun h => h.of_ports (by simp)
    | cueGo => exact h.handOn fun h => h.of_receivers fun q => by simp
    | cueRelease => exact h.handOn fun h => h.of_ports (by simp)
    | cueClear => exact h.handOn fun h => h.of_ports (by simp)
    | protect => exact h.handOn fun h => h.of_ports (by simp)
    | homeAsk => exact h.handOn fun h => h.of_ports (by simp)
    | statusAsk => exact h.handOn fun h => h.of_receivers fun q => by simp
    | restart => exact h.handOn fun _ => .deviceReset _
    | setup => exact h.handOn fun h => h.of_ports (by simp)

theorem FifosHold.closeFrame {s : State} (h : FifosHold s) (p : Port) : FifosHold (s.closeFrame p) := by
  simp only [State.closeFrame]
  split
  · next passes =>
    split
    · exact h.closeEcho p
    · exact (h.closeSettled p (Assembler.length_of_passes passes)).consume _ _
  · exact h.closeDiscarded p

/-! ### The FIFO toward a port: DOWN, and a relayed frame sent (R5, R16) -/

/-- A FIFO that keeps fewer committed bytes, and its copy or none, still fits what is copied into it. -/
theorem FifosHold.of_fifo {s t : State} {p : Port} (h : FifosHold s)
    (asm : ∀ q, (t.ports.get q).asm = (s.ports.get q).asm)
    (other : (t.ports.get (otherPort p)).fifo = (s.ports.get (otherPort p)).fifo)
    (used : (t.ports.get p).fifo.used ≤ (s.ports.get p).fifo.used)
    (copy : (t.ports.get p).fifo.copy = (s.ports.get p).fifo.copy ∨ (t.ports.get p).fifo.copy = none) :
    FifosHold t := by
  refine h.of_pair (p := otherPort p) ?_ (asm _) other
  have pair := fifosHold_iff.mp h (otherPort p)
  simp only [CopyFitsAt, otherPort_otherPort, asm] at pair ⊢
  exact pair.shrink used copy

theorem RelayFifo.used_advance_le (f : RelayFifo) : f.advance.used ≤ f.used := by
  unfold RelayFifo.advance
  split
  · next r rest h => simp [RelayFifo.used, h]
  · exact Nat.le_refl _

theorem RelayFifo.advance_copy (f : RelayFifo) : f.advance.copy = f.copy := by
  unfold RelayFifo.advance
  split <;> rfl

theorem FifosHold.relayedSent {s : State} (h : FifosHold s) (p : Port) : FifosHold (s.relayedSent p) := by
  have at' : ∀ q, ((s.relayedSent p).ports.get q).asm = (s.ports.get q).asm ∧
      ((s.relayedSent p).ports.get q).fifo = if q = p then (s.ports.get p).fifo.advance else (s.ports.get q).fifo := by
    intro q
    simp only [State.relayedSent, State.tallyPort_ports, State.mapFifo_ports, State.mapTx_ports, PerPort.get_set]
    split <;> simp [*]
  refine h.of_fifo (p := p) (fun q => (at' q).1) (by simp [at']) ?_ (.inl ?_)
  · simpa [at'] using RelayFifo.used_advance_le _
  · simpa [at'] using RelayFifo.advance_copy _

/-- The committed frames that stay as a port goes DOWN take no more than they took (R5). -/
theorem PortState.keptFrames_length_le (x : PortState) :
    (x.keptFrames.map fun r => r.bytes.length).sum ≤ x.fifo.used := by
  unfold PortState.keptFrames RelayFifo.used
  split
  · cases x.fifo.committed <;> simp
  · simp

/-- The ports after one has gone DOWN (R5). -/
theorem State.portDown_ports (s : State) (p : Port) :
    (s.portDown p).ports = s.ports.set p
      { s.ports.get p with
        up := false, fifo := { (s.ports.get p).fifo with committed := (s.ports.get p).keptFrames, copy := none } } := by
  simp [State.portDown, FrameClass.byPriority]

theorem FifosHold.portDown {s : State} (h : FifosHold s) (p : Port) : FifosHold (s.portDown p) := by
  refine h.of_fifo (p := p) (fun q => ?_) ?_ ?_ (.inr ?_) <;> rw [State.portDown_ports]
  · rw [PerPort.get_set]
    split <;> simp [*]
  · simp
  · simpa [RelayFifo.used] using PortState.keptFrames_length_le _
  · simp

/-! ### Every command (R6 to R184) -/

/-- A timed event, where its test lets it act (log 3). -/
theorem FifosHold.whenDue {s t : State} (h : FifosHold s) {b : Prop} [Decidable b] (ht : FifosHold t) :
    Ensures (.next (if b then t else s)) FifosHold := by
  intro u hu
  cases hu
  split
  · exact ht
  · exact h

theorem FifosHold.unchanged {s : State} (h : FifosHold s) : Ensures (.next s) FifosHold := by
  rintro t ⟨⟩
  exact h

/-- A boundary that a consumer has yet to take: its effect, or none. -/
theorem FifosHold.boundary {s : State} (h : FifosHold s) (bs : List Int) {g : Int → State}
    (hg : ∀ b, FifosHold (g b)) :
    Ensures (match bs with
      | b :: _ => .next (g b)
      | [] => .next s) FifosHold := by
  cases bs with
  | nil => rintro u ⟨⟩; exact h
  | cons b rest => rintro u ⟨⟩; exact hg b

theorem FifosHold.frameCommand {s : State} (h : FifosHold s) (k : FrameKind) (f : Frame) :
    Ensures (exec (commandOf k f) s) FifosHold := by
  rw [exec_commandOf]
  rintro u ⟨⟩
  exact h.consume _ f

theorem exec_keeps_fifosHold (c : Instr) (s : State) (h : FifosHold s) : Ensures (exec c s) FifosHold := by
  cases c with
  | characterReceived p c b => exact h.whenDue (h.takeCharacter p c b)
  | frameClose p => exact h.whenDue (h.closeFrame p)
  | portSilenceTimeout p => exact h.whenDue (h.portDown p)
  | choicePoint p => exact h.whenDue (h.of_receivers fun q => by simp)
  | relayedFrameSent p => exact h.whenDue (h.relayedSent p)
  | ownFrameSent p => exact h.whenDue (h.of_receivers fun q => by simp)
  | beacon f => exact h.frameCommand .beacon f
  | feedNote f => exact h.frameCommand .feedNote f
  | matchNote f => exact h.frameCommand .matchNote f
  | statusReply f => exact h.frameCommand .statusReply f
  | cueLoad f => exact h.frameCommand .cueLoad f
  | cueClear f => exact h.frameCommand .cueClear f
  | protect f => exact h.frameCommand .protect f
  | cueGo f => exact h.frameCommand .cueGo f
  | cueRelease f => exact h.frameCommand .cueRelease f
  | moveNote f => exact h.frameCommand .moveNote f
  | homeAsk f => exact h.frameCommand .homeAsk f
  | setup f => exact h.frameCommand .setup f
  | statusAsk f => exact h.frameCommand .statusAsk f
  | restart f => exact h.frameCommand .restart f
  | catchUpSlew => exact h.whenDue (h.of_ports (by simp))
  | holdoverEntry => exact h.whenDue (h.of_ports (by simp))
  | holdoverToFree => exact h.whenDue (h.of_ports (by simp))
  | seekToFree => exact h.whenDue (h.of_ports (by simp))
  | beaconTimer => exact h.whenDue (h.of_receivers fun q => by simp)
  | peerAgeOut n =>
    simp only [exec, execPeerAgeOut]
    split
    · exact h.whenDue (h.of_ports (by simp))
    · exact h.unchanged
  | feedPartLapse n =>
    simp only [exec, execFeedPartLapse]
    split
    · exact h.whenDue (h.of_ports (by simp))
    · exact h.unchanged
  | matchPartLapse n =>
    simp only [exec, execMatchPartLapse]
    split
    · exact h.whenDue (h.of_ports (by simp))
    · exact h.unchanged
  | pendingGoTick =>
    simp only [exec, execPendingGoTick]
    split
    · exact h.whenDue (h.of_receivers fun q => by simp)
    · exact h.unchanged
  | followTick =>
    simp only [exec, execFollowTick]
    split
    · exact h.whenDue (h.of_receivers fun q => by simp)
    · exact h.unchanged
  | laneTick g => rintro t ⟨⟩; exact h.of_ports (by simp)
  | gatherClose =>
    simp only [exec, execGatherClose]
    split
    · exact h.whenDue (h.of_ports (by simp))
    · exact h.unchanged
  | earlyNoteLapse n =>
    simp only [exec, execEarlyNoteLapse]
    split
    · exact h.whenDue (h.of_ports (by simp))
    · exact h.unchanged
  | darkStart => exact h.boundary _ fun b => h.of_ports (by simp)
  | colourBoundary => exact h.boundary _ fun b => h.of_receivers fun q => by simp
  | nextMatchTime => exact h.whenDue (h.of_receivers fun q => by simp)
  | emitterPwmPeriod => exact h.whenDue (h.of_ports (by simp))
  | axisBoundary x => exact h.boundary _ fun b => h.of_ports (by simp)
  | bridgePwmPeriod => exact h.whenDue (h.of_ports (by simp))
  | overcurrentEvent x c => rintro t ⟨⟩; exact h.of_ports (by simp)
  | senseScan e d f => exact h.whenDue (h.of_receivers fun q => by simp)
  | indexEdge x e => rintro t ⟨⟩; exact h.of_ports (by simp)
  | feedBoundary =>
    rintro t ⟨⟩
    split
    · exact h
    · exact h.of_receivers fun q => by simp
  | settleEnd => exact h.whenDue (h.of_receivers fun q => by simp)
  | tripEnd => exact h.whenDue (h.of_receivers fun q => by simp)
  | nextNoteTime => exact h.whenDue (h.of_receivers fun q => by simp)
  | bridgeEnable => exact h.whenDue (h.of_ports (by simp))
  | resetLine => rintro t ⟨⟩; exact .deviceReset _
  | powerOn => rintro t ⟨⟩; exact .deviceReset _
  | setupReadComplete => exact h.whenDue (h.of_receivers fun q => by simp)
  | resetLineHeld => rintro t ⟨⟩; exact .deviceReset _

/-- Settles O14: the characters of one port reach only its own assembler and the FIFO opposite, and the room a copy is
given at the header point is the room its committed frame takes. -/
theorem relayFifosNeverOverflow : Obligations.RelayFifosNeverOverflow :=
  keptByStep_of (fun _ _ h => h.of_ports rfl) (fun _ h => h.of_ports (by simp)) exec_keeps_fifosHold

end Sys2Proof.Machine

/-! The state a device reset leaves, and the invariants it starts with (R183). -/

namespace Sys2Proof.Machine

/-! ### The blocks after a reset -/

theorem reset_ports (p : Port) : State.reset.ports.get p = PortState.initial := by
  cases p <;> rfl

theorem reset_outbox (c : FrameClass) : State.reset.outbox.get c = Slot.initial := by
  cases c <;> rfl

theorem reset_axes (x : Axis) : State.reset.axes.get x = AxisState.initial := by
  cases x <;> rfl

theorem reset_axisSettings (x : Axis) : State.reset.settings.axes.get x = AxisSettings.default x := by
  cases x <;> rfl

theorem reset_emitters (e : Emitter) : State.reset.colour.emitters.get e = EmitterState.initial 20000 := by
  cases e <;> rfl

/-- Settles O4, block by block. -/
theorem resetValues : Obligations.ResetValues := by
  refine ⟨rfl, ⟨rfl, fun x => ?_, rfl, rfl⟩, fun p => ?_, fun c => ?_, rfl, rfl, rfl, rfl,
    ⟨rfl, rfl, rfl, rfl, rfl, rfl, rfl, rfl, fun e => ?_⟩, fun x => ?_, rfl, rfl, rfl, rfl, rfl, fun x => ?_⟩
  · cases x <;> rfl
  · simp only [reset_ports]; rfl
  · exact reset_outbox c
  · exact reset_emitters e
  · simp only [reset_axes]; exact ⟨rfl, rfl, rfl, rfl, rfl⟩
  · rw [reset_axisSettings]; cases x <;> rfl

/-! ### The invariants at reset -/

theorem reset_not_mustBeDark : ¬ MustBeDark State.reset := by
  rintro (h | ⟨x, p, h⟩)
  · exact h rfl
  · rw [reset_axes] at h
    exact absurd h nofun

theorem reset_colourHolds : ColourHolds State.reset := by
  refine ⟨by decide, by decide, fun e => ?_⟩
  rw [reset_emitters]
  decide

theorem reset_speedHolds : SpeedHolds State.reset := by
  intro x
  rw [reset_axes, reset_axisSettings]
  exact ⟨Nat.zero_le _, (by cases x <;> decide), fun _ => ⟨rfl, rfl, rfl, nofun, rfl⟩⟩

theorem reset_feedHolds : FeedHolds State.reset := by
  refine ⟨by decide, by decide, fun x => ?_, by decide, by decide, fun h => absurd rfl h, fun x => ?_⟩ <;>
    cases x <;> decide

theorem reset_quiet : QuietWhenUnconfigured State.reset := by
  refine ⟨fun _ => rfl, fun _ => ⟨rfl, rfl, rfl, rfl, rfl, rfl, fun c => ?_, rfl, rfl, rfl, rfl, rfl, rfl, rfl, rfl,
    fun x => ?_⟩⟩
  · rw [reset_outbox]; rfl
  · rw [reset_axes]; exact ⟨rfl, rfl, rfl, rfl⟩

/-- Settles O60: the base case of every statement about what a step keeps. -/
theorem invariantsHoldAtReset : Obligations.InvariantsHoldAtReset :=
  ⟨fifosHold_reset, Nat.zero_le _, ⟨by decide, .nil, nofun⟩, ⟨by decide, .nil, nofun, by decide⟩,
    fun h => absurd h reset_not_mustBeDark, reset_colourHolds, reset_speedHolds, reset_feedHolds, reset_store_wf,
    reset_quiet⟩

end Sys2Proof.Machine

/-! What the receive assembler of a port does with a character, as one equation of whole states for each of its states
(R6, R11, R13). -/

namespace Sys2Proof.Machine

variable {s : State} {p : Port}

/-! ### A character by the state of the assembler (R6) -/

theorem exec_characterReceived (h : s.setup.readDone = true) (c : Byte) (stopBit : Bool) :
    exec (.characterReceived p c stopBit) s = .next (s.takeCharacter p c stopBit) := by
  simp [exec, execCharacterReceived, h]

/-- The characters stored and the FIFO opposite stand while a character is counted. -/
theorem State.hearCharacter_bytes (s : State) (p : Port) (stopBit : Bool) :
    ((s.hearCharacter p stopBit).ports.get p).asm.bytes = (s.ports.get p).asm.bytes := by
  simp [State.hearCharacter]

theorem State.takeHeader_early (h : (s.ports.get p).asm.bytes.length < 6) (c : Byte) :
    s.takeHeader p c = s.mapAsm p fun _ => (s.ports.get p).asm.store c := by
  simp only [State.takeHeader]
  rw [if_pos (by simp [Assembler.store]; omega)]

/-- At the header point a length above 48 discards the frame, and any other has its relay decision made (R6, R11). -/
theorem State.takeHeader_seventh (h : (s.ports.get p).asm.bytes.length = 6) (c : Byte) :
    s.takeHeader p c =
      if 48 < c.toNat then s.mapAsm p fun a => (a.store c).enter .discard
      else (s.mapAsm p fun a => (a.store c).enter .body).decideRelay p := by
  simp only [State.takeHeader]
  rw [if_neg (by simp [Assembler.store, h])]
  cases p <;> rfl

theorem State.takeBody_declared (h : (s.ports.get p).asm.bytes.length < (s.ports.get p).asm.declared) (c : Byte) :
    s.takeBody p c = (s.mapAsm p fun a => a.store c).mapFifo (otherPort p) fun f => f.append c := by
  simp only [State.takeBody, if_pos h]

theorem State.takeBody_beyond (h : (s.ports.get p).asm.declared ≤ (s.ports.get p).asm.bytes.length) (c : Byte) :
    s.takeBody p c = (s.mapAsm p fun a => a.enter .discard).mapFifo (otherPort p) RelayFifo.rollback := by
  simp only [State.takeBody, if_neg (Nat.not_lt.mpr h)]

/-- Settles O5: each state of the assembler, and a body's character within the declared count and beyond it. -/
theorem characterTaken : Obligations.CharacterTaken := by
  intro s p c stopBit x q a stored
  have bytes := s.hearCharacter_bytes p stopBit
  refine ⟨fun h => ?_, fun h hs => ?_, fun h hs few => ?_, fun h hs more => ?_, fun h hs full => ?_, fun h hs => ?_⟩
  · simp [exec, execCharacterReceived, h]
  all_goals rw [exec_characterReceived h]; simp only [State.takeCharacter, x, hs] at *
  · cases p <;> rfl
  · rw [State.takeHeader_early (by rw [bytes]; exact few)]
    cases p <;> rfl
  · rw [State.takeBody_declared (by rw [Assembler.declared, Assembler.header, bytes]; exact more)]
    cases p <;> rfl
  · rw [State.takeBody_beyond (by rw [Assembler.declared, Assembler.header, bytes]; exact full)]
    cases p <;> rfl
  · cases p <;> rfl

/-! ### The header point (R11, R13) -/

theorem State.isOwnEcho_iff (s : State) (origin : Byte) :
    s.isOwnEcho origin = true ↔ s.settings.station ≠ 0 ∧ origin.toNat = s.settings.station := by
  simp [State.isOwnEcho]

/-- A frame of the own station and one to it are told apart by nothing that the relay decision does (R11). -/
theorem State.relayDecision_eq (s : State) (p : Port) (a : Assembler) :
    s.relayDecision p a =
      if s.settings.station ≠ 0 ∧
          ((a.header 2).toNat = s.settings.station ∨ (a.header 3).toNat = s.settings.station) then .noCopy
      else if s.settings.hopLimit ≤ (a.header 5).toNat + 1 then .hopLimit
      else if (s.ports.get (otherPort p)).up = false then .noCopy
      else if (s.ports.get (otherPort p)).fifo.free < a.declared then .relayFull
      else .openCopy := by
  simp only [State.relayDecision, s.isOwnEcho_iff, and_or_left]
  by_cases ofOwn : s.settings.station ≠ 0 ∧ (a.header 2).toNat = s.settings.station
  · rw [if_pos ofOwn, if_pos (.inl ofOwn)]
  · rw [if_neg ofOwn]
    simp only [ofOwn, false_or]

/-- A header byte before the last one stored is the one stored before. -/
theorem Assembler.header_store (a : Assembler) (c : Byte) {i : Nat} (h : i < a.bytes.length) :
    (a.store c).header i = a.bytes.getD i 0 := by
  rw [Assembler.header, Assembler.store, getD_append_of_lt _ h]

/-- The seventh character is the length of the frame. -/
theorem Assembler.declared_store_seventh (a : Assembler) (c : Byte) (h : a.bytes.length = 6) :
    (a.store c).declared = 9 + c.toNat := by
  simp [Assembler.declared, Assembler.header, Assembler.store, h]

/-- Settles O6: the header point is `decideRelay` on the header that the length character completes. -/
theorem headerPoint : Obligations.HeaderPoint := by
  intro s p len stopBit x q a at' body own h hs six
  have bytes := s.hearCharacter_bytes p stopBit
  rw [exec_characterReceived h]
  simp only [State.takeCharacter, x, hs] at *
  rw [State.takeHeader_seventh (by rw [bytes]; exact six)]
  by_cases long : 48 < len.toNat
  · rw [if_pos long, if_pos long]
    cases p <;> rfl
  · rw [if_neg long, if_neg long]
    let s1 := (s.hearCharacter p stopBit).mapAsm p fun a => (a.store len).enter .body
    have asm : (s1.ports.get p).asm = body := by cases p <;> rfl
    have opposite : s1.ports.get (otherPort p) = q := by cases p <;> rfl
    have header : ∀ i < 6, body.header i = (s.ports.get p).asm.bytes.getD i 0 :=
      fun i hi => Assembler.header_store (s.ports.get p).asm len (by omega)
    have declared : body.declared = 9 + len.toNat := Assembler.declared_store_seventh (s.ports.get p).asm len six
    have decision : s1.relayDecision p body =
        if own then .noCopy
        else if s.settings.hopLimit ≤ (x.asm.bytes.getD 5 0).toNat + 1 then .hopLimit
        else if q.up = false then .noCopy
        else if 512 - (q.fifo.committed.map fun r => r.bytes.length).sum < 9 + len.toNat then .relayFull
        else .openCopy := by
      rw [s1.relayDecision_eq p body, opposite, declared, header 2 (by omega), header 3 (by omega),
        header 5 (by omega)]
      rfl
    change Host.Outcome.next (s1.decideRelay p) = _
    simp only [State.decideRelay, asm]
    by_cases ofOwn : own
    · rw [decision, if_pos ofOwn, if_pos ofOwn]
      cases p <;> rfl
    rw [if_neg ofOwn] at decision ⊢
    by_cases hops : s.settings.hopLimit ≤ (x.asm.bytes.getD 5 0).toNat + 1
    · rw [decision, if_pos hops, if_pos hops]
      cases p <;> rfl
    rw [if_neg hops] at decision ⊢
    by_cases down : q.up = false
    · rw [decision, if_pos down, if_pos down]
      cases p <;> rfl
    rw [if_neg down] at decision ⊢
    by_cases full : 512 - (q.fifo.committed.map fun r => r.bytes.length).sum < 9 + len.toNat
    · rw [decision, if_pos full, if_pos full]
      cases p <;> rfl
    · rw [decision, if_neg full, if_neg full]
      cases p <;> rfl

end Sys2Proof.Machine

/-! The close of a frame: when it falls due, what passes, and what becomes of a frame that does and of one that does not
(R2, R7, R8, R14). -/

namespace Sys2Proof.Machine

variable {s : State} {p : Port}

/-! ### When a frame closes, and what passes (R2, R7) -/

/-- The line has been idle for two character times since the last stop bit, up to now or to a start bit seen after it.
-/
theorem State.closeDue_of_closes (h : Closes s p) : s.closeDue p = true := by
  obtain ⟨counted, quiet, started⟩ := h
  simp only [State.closeDue, Bool.and_eq_true, decide_eq_true_eq]
  refine ⟨counted, ?_⟩
  unfold State.idleUntil
  split
  · next t ht =>
    split
    · next later => have := started t ht later; omega
    · exact quiet
  · exact quiet

theorem Assembler.passes_iff {a : Assembler} : a.passes = true ↔ Passes a := by
  simp only [Assembler.passes, checkHolds, Bool.and_eq_true, beq_iff_eq, Bool.not_eq_true', decide_eq_true_eq,
    and_assoc]
  rfl

theorem exec_frameClose (h : Closes s p) : exec (.frameClose p) s = .next (s.closeFrame p) := by
  simp [exec, execFrameClose, State.closeDue_of_closes h]

theorem State.closeFrame_discards (h : ¬ Passes (s.ports.get p).asm) :
    s.closeFrame p = (s.resetAsm p).discardFrame p := by
  rw [← Assembler.passes_iff] at h
  simp only [State.closeFrame, if_neg h]

/-- The state in which a frame that passes is looked at: its assembler in IDLE and its port UP (R4, R6). -/
def State.closedUp (s : State) (p : Port) : State :=
  (s.resetAsm p).portComesUp p

theorem State.closeFrame_echo (h : Passes (s.ports.get p).asm)
    (own : s.isOwnEcho ((s.ports.get p).asm.bytes.getD 2 0) = true) :
    s.closeFrame p = (s.closedUp p).ownEcho p := by
  rw [← Assembler.passes_iff] at h
  simp only [State.closeFrame, if_pos h]
  exact if_pos own

theorem State.closeFrame_consumed (h : Passes (s.ports.get p).asm)
    (own : s.isOwnEcho ((s.ports.get p).asm.bytes.getD 2 0) = false) :
    s.closeFrame p = ((s.closedUp p).settleCopy p (s.ports.get p).asm).consume
      (kindOfCode ((s.ports.get p).asm.bytes.getD 1 0)) ((s.ports.get p).asm.frame p) := by
  rw [← Assembler.passes_iff] at h
  simp only [State.closeFrame, if_pos h]
  exact if_neg (by rw [Bool.not_eq_true]; exact own)

/-! ### Frames that go no further (R7, R8) -/

/-- Settles O7: a frame that does not pass, and an own echo. -/
theorem frameNotConsumed : Obligations.FrameNotConsumed := by
  intro s p closes x q idle
  refine ⟨fun fails => ?_, fun passes configured ofOwn => ?_⟩ <;> rw [exec_frameClose closes]
  · rw [State.closeFrame_discards fails]
    cases p <;> rfl
  · rw [State.closeFrame_echo passes (s.isOwnEcho_iff _ |>.mpr ⟨configured, ofOwn⟩)]
    cases p <;> rfl

/-! ### Frames handed on (R10, R14) -/

/-- Settles O8: the copy is settled and a stop counted, and then the command of the frame's kind runs. -/
theorem frameHandedOn : Obligations.FrameHandedOn := by
  intro s p closes passes foreign x q idle fifo s1 s2 f
  have own : s.isOwnEcho ((s.ports.get p).asm.bytes.getD 2 0) = false := by
    rw [Bool.eq_false_iff]
    intro h
    obtain ⟨configured, ofOwn⟩ := (s.isOwnEcho_iff _).mp h
    exact foreign configured ofOwn
  have copied : q.fifo.commit x.asm.lastEnd = fifo := by
    unfold RelayFifo.commit
    rfl
  have settled : (s.closedUp p).settleCopy p (s.ports.get p).asm = s2 := by
    simp only [s2, s1, ← copied]
    cases p <;> rfl
  rw [exec_frameClose closes, State.closeFrame_consumed passes own, settled]
  cases kindOfCode (x.asm.bytes.getD 1 0) with
  | none => rfl
  | some k => exact (exec_commandOf k f s2).symm

end Sys2Proof.Machine

/-! A port goes DOWN: what it withdraws from each class of the outbox, and the longest wait that results (R5, R20). -/

namespace Sys2Proof.Machine

variable (s : State) (p : Port) (c : FrameClass)

/-! ### Freeing an entry (R20) -/

@[simp] theorem Outbox.set_get (o : Outbox) (c : FrameClass) : o.set c (o.get c) = o := by
  cases c <;> rfl

@[simp] theorem Outbox.set_set (o : Outbox) (c : FrameClass) (x y : Slot) : (o.set c x).set c y = o.set c y := by
  cases c <;> rfl

theorem portsWithin_iff {x y : PerPort Bool} :
    portsWithin x y = true ↔ (x.a = true → y.a = true) ∧ (x.b = true → y.b = true) := by
  simp only [portsWithin, Bool.and_eq_true, Bool.or_eq_true, Bool.not_eq_true', ← Bool.not_eq_true,
    Decidable.imp_iff_not_or]

/-- The freeing of the FEED-NOTE's slot is what bridge enable may wait for (R173). -/
theorem Feed.slotFreed_eq (f : Feed) :
    f.slotFreed = if f.enabling = .waiting then { f with enabling := .due } else f := by
  unfold Feed.slotFreed
  cases h : f.enabling <;> simp

/-- All that the freeing of an entry does (R20, R173). -/
theorem State.freeEntry_eq (entryTime : Nat) :
    s.freeEntry c entryTime =
      { s with
        outbox := s.outbox.set c { entry := none, lastFreed := some (s.clock.thirds / 3000) },
        longestWait := max s.longestWait (s.clock.thirds / 3000 - entryTime),
        feed := if c = .feedNote ∧ s.feed.enabling = .waiting then { s.feed with enabling := .due } else s.feed } := by
  unfold State.freeEntry
  cases c with
  | feedNote => simp only [Feed.slotFreed_eq, true_and]; rfl
  | beacon => rfl
  | moveNote => rfl
  | matchNote => rfl
  | statusReply => rfl

/-! ### A port withdrawn from a class (R5) -/

/-- The slot's entry has nothing left owing once a port has left its waited set. -/
def Slot.freedBy (x : Slot) (p : Port) : Bool :=
  x.entry.any fun e => portsWithin (e.waited.set p false) e.sent

/-- The slot after a port has left it. -/
def Slot.withdrawn (x : Slot) (c : FrameClass) (p : Port) (up : Nat) : Slot :=
  if x.freedBy p then { entry := none, lastFreed := some up }
  else { x with entry := x.entry.map fun e => e.without c p }

/-- How long the entry had waited that a port's leaving frees, and 0 where it frees none. -/
def Slot.waitFreed (x : Slot) (p : Port) (up : Nat) : Nat :=
  if x.freedBy p then up - (x.entry.map fun e => e.entryTime).getD up else 0

theorem Slot.freedBy_iff {x : Slot} :
    x.freedBy p = true ↔ ∃ e, x.entry = some e ∧
      ((e.waited.set p false).a = true → e.sent.a = true) ∧ ((e.waited.set p false).b = true → e.sent.b = true) := by
  simp only [Slot.freedBy, Option.any_eq_true, portsWithin_iff]

/-- All that withdrawing a port from a class does (R5, R20, R173). -/
theorem State.withdraw_eq :
    s.withdraw p c =
      { s with
        outbox := s.outbox.set c ((s.outbox.get c).withdrawn c p (s.clock.thirds / 3000)),
        longestWait := max s.longestWait ((s.outbox.get c).waitFreed p (s.clock.thirds / 3000)),
        feed :=
          if c = .feedNote ∧ (s.outbox.get c).freedBy p = true ∧ s.feed.enabling = .waiting then
            { s.feed with enabling := .due }
          else s.feed } := by
  cases he : (s.outbox.get c).entry with
  | none =>
    have kept : (s.outbox.get c).freedBy p = false := by simp [Slot.freedBy, he]
    simp [State.withdraw, State.freeIfCovered, Slot.withdrawn, Slot.waitFreed, kept, he]
    rfl
  | some e =>
    simp only [State.withdraw, State.freeIfCovered, State.withOutbox_outbox, Outbox.get_set_self, he, Option.map_some]
    cases freed : (s.outbox.get c).freedBy p with
    | true =>
      have covered : portsWithin (e.without c p).waited (e.without c p).sent = true := by
        simpa [Slot.freedBy, he, Entry.without] using freed
      rw [if_pos covered, State.freeEntry_eq]
      simp [Slot.withdrawn, Slot.waitFreed, freed, he, Entry.without]
      exact ite_congr rfl (fun _ => rfl) fun _ => rfl
    | false =>
      have covered : ¬ portsWithin (e.without c p).waited (e.without c p).sent = true := by
        simpa [Slot.freedBy, he, Entry.without] using freed
      rw [if_neg covered]
      simp [Slot.withdrawn, Slot.waitFreed, freed, he]
      rfl

/-! ### A port withdrawn from every class -/

variable {cs : List FrameClass}

/-- A port withdrawn from several classes, one after the other. -/
def State.withdrawAll (cs : List FrameClass) : State :=
  cs.foldl (fun s c => s.withdraw p c) s

@[simp] theorem State.withdraw_outbox (d : FrameClass) :
    (s.withdraw p c).outbox.get d =
      if d = c then (s.outbox.get c).withdrawn c p (s.clock.thirds / 3000) else s.outbox.get d := by
  rw [State.withdraw_eq, Outbox.get_set]

theorem State.withdrawAll_outbox (distinct : cs.Nodup) (d : FrameClass) :
    (s.withdrawAll p cs).outbox.get d =
      if d ∈ cs then (s.outbox.get d).withdrawn d p (s.clock.thirds / 3000) else s.outbox.get d := by
  induction cs generalizing s with
  | nil => rfl
  | cons c cs ih =>
    obtain ⟨fresh, distinct⟩ := List.nodup_cons.mp distinct
    change ((s.withdraw p c).withdrawAll p cs).outbox.get d = _
    rw [ih _ distinct]
    by_cases hd : d = c
    · subst hd
      simp [fresh]
    · simp [hd]

theorem State.withdrawAll_longestWait (distinct : cs.Nodup) :
    (s.withdrawAll p cs).longestWait =
      (cs.map fun c => (s.outbox.get c).waitFreed p (s.clock.thirds / 3000)).foldl max s.longestWait := by
  induction cs generalizing s with
  | nil => rfl
  | cons c cs ih =>
    obtain ⟨fresh, distinct⟩ := List.nodup_cons.mp distinct
    change ((s.withdraw p c).withdrawAll p cs).longestWait = _
    have others : ∀ d ∈ cs, (s.withdraw p c).outbox.get d = s.outbox.get d := by
      intro d hd
      rw [State.withdraw_outbox, if_neg fun h : d = c => fresh (h ▸ hd)]
    rw [ih _ distinct, List.map_cons, List.foldl_cons, (s.withdraw_frame p c).1,
      List.map_congr_left fun d hd => by rw [others d hd]]
    rw [State.withdraw_eq]

theorem State.withdrawAll_feed (distinct : cs.Nodup) :
    (s.withdrawAll p cs).feed =
      if .feedNote ∈ cs ∧ s.outbox.feedNote.freedBy p = true ∧ s.feed.enabling = .waiting then
        { s.feed with enabling := .due }
      else s.feed := by
  induction cs generalizing s with
  | nil => simp [State.withdrawAll]
  | cons c cs ih =>
    obtain ⟨fresh, distinct⟩ := List.nodup_cons.mp distinct
    change ((s.withdraw p c).withdrawAll p cs).feed = _
    rw [ih _ distinct]
    by_cases hc : c = .feedNote
    · subst hc
      simp only [fresh, false_and, if_false, State.withdraw_eq, List.mem_cons, true_or, true_and]
      rfl
    · have note : (s.withdraw p c).outbox.feedNote = s.outbox.feedNote := by
        have := s.withdraw_outbox p c .feedNote
        rwa [if_neg (Ne.symm hc)] at this
      have feed : (s.withdraw p c).feed = s.feed := by
        rw [State.withdraw_eq]
        exact if_neg fun h => hc h.1
      simp [note, feed, Ne.symm hc]

theorem FrameClass.byPriority_nodup : FrameClass.byPriority.Nodup := by decide

theorem FrameClass.mem_byPriority (c : FrameClass) : c ∈ FrameClass.byPriority := by
  cases c <;> decide

/-! ### PORT_SILENCE_TIMEOUT (R5) -/

/-- The port's own part of going DOWN: its copy abandoned, its committed frames discarded and counted (R5). -/
def State.flushed : State :=
  let x := s.ports.get p
  (s.withPort p { x with up := false, fifo := { x.fifo with committed := x.keptFrames, copy := none } }).tallyPort p
    fun t => { t with relayFlushed := satBy (x.fifo.committed.length - x.keptFrames.length) t.relayFlushed }

theorem State.portDown_eq : s.portDown p = (s.flushed p).withdrawAll p FrameClass.byPriority := rfl

theorem State.portDown_outbox (c : FrameClass) :
    (s.portDown p).outbox.get c = (s.outbox.get c).withdrawn c p (s.clock.thirds / 3000) := by
  rw [State.portDown_eq, State.withdrawAll_outbox _ _ FrameClass.byPriority_nodup, if_pos c.mem_byPriority]
  rfl

theorem State.portDown_feed :
    (s.portDown p).feed =
      if s.outbox.feedNote.freedBy p = true ∧ s.feed.enabling = .waiting then { s.feed with enabling := .due }
      else s.feed := by
  rw [State.portDown_eq, State.withdrawAll_feed _ _ FrameClass.byPriority_nodup]
  simp only [FrameClass.mem_byPriority, true_and]
  rfl

/-- The longest wait reaches every wait freed, and is one of them or as it was (R20). -/
theorem State.portDown_longestWait :
    let wait := fun c => (s.outbox.get c).waitFreed p (s.clock.thirds / 3000)
    s.longestWait ≤ (s.portDown p).longestWait ∧ (∀ c, wait c ≤ (s.portDown p).longestWait) ∧
      ((s.portDown p).longestWait = s.longestWait ∨ ∃ c, (s.portDown p).longestWait = wait c) := by
  intro wait
  have h : (s.portDown p).longestWait = (FrameClass.byPriority.map wait).foldl max s.longestWait := by
    rw [State.portDown_eq, State.withdrawAll_longestWait _ _ FrameClass.byPriority_nodup]
    rfl
  simp only [FrameClass.byPriority, List.map_cons, List.map_nil, List.foldl_cons, List.foldl_nil] at h
  refine ⟨by omega, fun c => by cases c <;> omega, ?_⟩
  have attained : (s.portDown p).longestWait = s.longestWait ∨
      (s.portDown p).longestWait = wait .beacon ∨ (s.portDown p).longestWait = wait .moveNote ∨
      (s.portDown p).longestWait = wait .feedNote ∨ (s.portDown p).longestWait = wait .matchNote ∨
      (s.portDown p).longestWait = wait .statusReply := by omega
  rcases attained with h | h | h | h | h | h
  · exact .inl h
  all_goals exact .inr ⟨_, h⟩

theorem State.portDown_stats : (s.portDown p).stats = (s.flushed p).stats := by
  simp [State.portDown, FrameClass.byPriority, State.flushed]

theorem Slot.withdrawn_of_empty {x : Slot} (he : x.entry = none) (up : Nat) : x.withdrawn c p up = x := by
  obtain ⟨entry, lastFreed⟩ := x
  subst he
  rfl

theorem Slot.withdrawn_of_freed {x : Slot} (freed : x.freedBy p = true) (up : Nat) :
    x.withdrawn c p up = { entry := none, lastFreed := some up } :=
  if_pos freed

theorem Slot.withdrawn_of_owing {x : Slot} {e : Entry} (he : x.entry = some e)
    (owing : ¬ (((e.waited.set p false).a = true → e.sent.a = true) ∧
      ((e.waited.set p false).b = true → e.sent.b = true))) (up : Nat) :
    x.withdrawn c p up = { entry := some (e.without c p), lastFreed := x.lastFreed } := by
  have kept : ¬ x.freedBy p = true := by
    rw [Slot.freedBy_iff]
    rintro ⟨e', he', free⟩
    exact owing (Option.some.inj (he.symm.trans he') ▸ free)
  rw [Slot.withdrawn, if_neg kept, he]
  rfl

theorem Slot.waitFreed_of_freed {x : Slot} {e : Entry} (he : x.entry = some e) (freed : x.freedBy p = true) (up : Nat) :
    x.waitFreed p up = up - e.entryTime := by
  simp [Slot.waitFreed, freed, he]

/-- Settles O9: what a port's leaving does to each class, one after the other. -/
theorem portGoesDown : Obligations.PortGoesDown := by
  intro s p x kept covered waits up silent
  have due : s.silenceDue p = true := by
    simp only [State.silenceDue, State.passed, State.uptime, Bool.and_eq_true]
    exact ⟨up, decide_eq_true silent⟩
  obtain ⟨least, reaches, attained⟩ := s.portDown_longestWait p
  refine ⟨s.portDown p, by simp [exec, execPortSilenceTimeout, due], s.portDown_ports p, fun c => ?_, ?_,
    ⟨least, ?_, ?_⟩, ?_, ?_, ?_⟩
  · rw [State.portDown_outbox]
    cases he : (s.outbox.get c).entry with
    | none => exact Slot.withdrawn_of_empty p c he _
    | some e =>
      dsimp only
      split
      · next free => exact Slot.withdrawn_of_freed p c ((Slot.freedBy_iff p).mpr ⟨e, he, free⟩) _
      · next owing => exact Slot.withdrawn_of_owing p c he owing _
  · rw [State.portDown_stats]
    rfl
  · rintro n ⟨c, e, he, free, rfl⟩
    rw [← Slot.waitFreed_of_freed p he ((Slot.freedBy_iff p).mpr ⟨e, he, free⟩)]
    exact reaches c
  · rcases attained with h | ⟨c, h⟩
    · exact .inl h
    · cases freed : (s.outbox.get c).freedBy p with
      | false =>
        simp only [Slot.waitFreed, freed] at h
        exact .inl (by simp at h; omega)
      | true =>
        obtain ⟨e, he, free⟩ := (Slot.freedBy_iff p).mp freed
        exact .inr ⟨c, e, he, free, h.trans (Slot.waitFreed_of_freed p he freed _)⟩
  · intro waiting free
    rw [State.portDown_feed, if_pos ⟨(Slot.freedBy_iff p).mpr free, waiting⟩]
  · intro h
    rw [State.portDown_feed, if_neg]
    rintro ⟨freed, waiting⟩
    obtain ⟨e, he, free⟩ := (Slot.freedBy_iff p).mp freed
    rcases h with h | h
    · exact h waiting
    · exact h e he free
  · apply State.ext <;> simp

end Sys2Proof.Machine

/-! What a transmitter sends next: the outbox arbiter's choice by priority and throttle, and the bytes an own frame
leaves with (R16, R17, R19, R21). -/

namespace Sys2Proof.Machine

variable {s : State} {p : Port} {c : FrameClass}

/-! ### What is owed and throttled (R17, R19) -/

theorem State.owed_iff : s.owed p c = true ↔ Owes s p c := by
  simp only [State.owed, Owes, Option.any_eq_true, Bool.and_eq_true, Bool.not_eq_true']

theorem State.throttled_iff : s.throttled c = true ↔ Throttled s c := by
  have interval : c.throttle = c.rank.2 := by cases c <;> rfl
  simp only [State.throttled, Throttled, State.uptime, Option.any_eq_true, decide_eq_true_eq, interval]

theorem State.ownWaited_iff : s.ownWaited p = true ↔ OwnWaits s p := by
  simp only [State.ownWaited, OwnWaits, List.any_eq_true, Bool.and_eq_true, Option.any_eq_true, decide_eq_true_eq,
    State.owed_iff, FrameClass.mem_byPriority, true_and, exists_and_left]
  rfl

/-! ### The arbiter (R19) -/

/-- The classes stand in the order of their priority. -/
theorem FrameClass.byPriority_sorted : FrameClass.byPriority.Pairwise fun c d => c.rank.1 ≤ d.rank.1 := by
  decide

theorem FrameClass.rank_injective {c d : FrameClass} (h : c.rank.1 = d.rank.1) : c = d := by
  have listed : ∀ c ∈ FrameClass.byPriority, ∀ d ∈ FrameClass.byPriority, c.rank.1 = d.rank.1 → c = d := by decide
  exact listed c c.mem_byPriority d d.mem_byPriority h

/-- The first class with a property is the one of highest priority that has it. -/
theorem FrameClass.find_byPriority {t : FrameClass → Bool} (h : FrameClass.byPriority.find? t = some c) :
    t c = true ∧ ∀ d, t d = true → c.rank.1 ≤ d.rank.1 := by
  obtain ⟨hc, before, after, split, none⟩ := List.find?_eq_some_iff_append.mp h
  refine ⟨hc, fun d hd => ?_⟩
  have sorted := FrameClass.byPriority_sorted
  have mem := d.mem_byPriority
  rw [split] at sorted mem
  rcases List.mem_append.mp mem with mem | mem
  · have := none d mem
    simp [hd] at this
  · rcases List.mem_cons.mp mem with rfl | mem
    · exact Nat.le_refl _
    · exact List.rel_of_pairwise_cons (List.pairwise_append.mp sorted).2.1 mem

theorem Arbitrated.of_arbiter (h : s.arbiter p = some c) : Arbitrated s p c := by
  unfold State.arbiter at h
  split at h
  · next d found =>
    cases h
    obtain ⟨hc, first⟩ := FrameClass.find_byPriority found
    simp only [Bool.and_eq_true, Bool.not_eq_true', ← Bool.not_eq_true, State.owed_iff, State.throttled_iff] at hc first
    exact ⟨hc.1, fun t => absurd t hc.2, fun d hd t => first d ⟨hd, fun td => hc.2 (t td)⟩⟩
  · next noneFree =>
    obtain ⟨hc, first⟩ := FrameClass.find_byPriority h
    have allThrottled : ∀ d, Owes s p d → Throttled s d := by
      intro d hd
      have := List.find?_eq_none.mp noneFree d d.mem_byPriority
      simpa [State.owed_iff.mpr hd, State.throttled_iff] using this
    exact ⟨State.owed_iff.mp hc, fun _ => allThrottled, fun d hd _ => first d (State.owed_iff.mpr hd)⟩

/-- Whatever is owed gives the arbiter a choice. -/
theorem State.arbiter_of_owed (h : Owes s p c) : ∃ d, s.arbiter p = some d := by
  unfold State.arbiter
  split
  · exact ⟨_, rfl⟩
  · cases found : FrameClass.byPriority.find? fun c => s.owed p c with
    | some d => exact ⟨d, rfl⟩
    | none => exact absurd (State.owed_iff.mpr h) (List.find?_eq_none.mp found c c.mem_byPriority)

theorem Arbitrated.unique {d : FrameClass} (hc : Arbitrated s p c) (hd : Arbitrated s p d) : c = d := by
  obtain ⟨owesC, lastC, leastC⟩ := hc
  obtain ⟨owesD, lastD, leastD⟩ := hd
  exact FrameClass.rank_injective (Nat.le_antisymm (leastC d owesD fun throttled => lastD throttled c owesC)
    (leastD c owesC fun throttled => lastC throttled d owesD))

theorem State.arbiter_iff : s.arbiter p = some c ↔ Arbitrated s p c := by
  refine ⟨.of_arbiter, fun h => ?_⟩
  obtain ⟨d, hd⟩ := State.arbiter_of_owed h.1
  rw [hd, h.unique (.of_arbiter hd)]

/-! ### The bytes of an own frame (R21, R49) -/

theorem beBytes_one (v : Nat) : beBytes 1 v = [BitVec.ofNat 8 v] := by
  simp [beBytes]

theorem State.ownFrame_ownBytes (s : State) (c : FrameClass) (e : Entry) : OwnBytes s c e (s.ownFrame c e) := by
  have beacon : buildBeacon s.beaconFields =
      [1, BitVec.ofNat 8 s.clock.mode.code] ++ beBytes 2 s.clock.epoch ++ beBytes 4 s.clock.ms ++
        beBytes 2 s.clock.us ++ [0, 0, 0] ++ [BitVec.ofNat 8 (s.settings.beaconInterval / 10)] := by
    simp only [buildBeacon, State.beaconFields, beBytes_one]
    rfl
  unfold OwnBytes State.ownFrame
  cases c with
  | beacon =>
    simp only [State.ownPayload, beacon]
    cases s.clock.mode <;> rfl
  | moveNote => rfl
  | feedNote => rfl
  | matchNote => rfl
  | statusReply => rfl

/-! ### The choice (R16) -/

theorem State.choiceDue_of_lineIdle (h : LineIdle s p)
    (something : (s.ports.get p).fifo.committed ≠ [] ∨ ∃ c, s.arbiter p = some c) : s.choiceDue p = true := by
  obtain ⟨idle, since⟩ := h
  have rested : (s.ports.get p).tx.lastEnded.all (fun e => decide (e + 30 ≤ s.clock.thirds)) = true := by
    cases he : (s.ports.get p).tx.lastEnded with
    | none => rfl
    | some e => simpa using since e he
  have waits : (!(s.ports.get p).fifo.committed.isEmpty || (s.arbiter p).isSome) = true := by
    rcases something with some' | ⟨c, hc⟩
    · simp [some']
    · simp [hc]
  simp only [State.choiceDue, idle, rested, waits, Option.isNone_none, Bool.and_self]

theorem exec_choicePoint (h : LineIdle s p)
    (something : (s.ports.get p).fifo.committed ≠ [] ∨ ∃ c, s.arbiter p = some c) :
    exec (.choicePoint p) s = .next (s.startChoice p (s.choose p)) := by
  simp [exec, execChoicePoint, State.choiceDue_of_lineIdle h something]

/-- The oldest relayed frame goes first, unless an own one has waited and the last was none sent ahead (R16 steps 1
and 2). -/
theorem State.choose_relayed {r : RelayFrame} {rest : List RelayFrame} (h : (s.ports.get p).fifo.committed = r :: rest)
    (first : (s.ports.get p).tx.sentAhead = true ∨ ¬ OwnWaits s p) : s.choose p = .relayed r := by
  simp only [State.choose, h]
  split
  · rfl
  · next notAhead =>
    rw [if_neg]
    rw [State.ownWaited_iff]
    exact first.resolve_left notAhead

theorem State.choose_own (h : (s.ports.get p).fifo.committed = [] ∨
      ((s.ports.get p).tx.sentAhead = false ∧ OwnWaits s p)) (hc : s.arbiter p = some c) :
    s.choose p = .own c (decide ((s.ports.get p).fifo.committed ≠ [])) := by
  simp only [State.choose]
  cases hf : (s.ports.get p).fifo.committed with
  | nil => simp [State.ownChoice, hc]
  | cons r rest =>
    obtain ⟨ahead, waits⟩ := h.resolve_left (by simp [hf])
    simp [ahead, State.ownWaited_iff.mpr waits, State.ownChoice, hc]

/-- Settles O10: the choice is the arbiter's or the oldest relayed frame, and its transmission is what the choice
starts. -/
theorem choicePoint : Obligations.ChoicePoint := by
  intro s p idle x
  refine ⟨fun r rest hf first => ?_, fun c e due chosen he => ?_, fun empty owesNone => ?_, fun ⟨c, hc⟩ => ?_⟩
  · rw [exec_choicePoint idle (.inl (by simp [x] at hf; simp [hf])), State.choose_relayed hf first]
    rfl
  · have hc := State.arbiter_iff.mpr chosen
    refine ⟨s.ownFrame c e, s.ownFrame_ownBytes c e, ?_⟩
    rw [exec_choicePoint idle (.inr ⟨c, hc⟩), State.choose_own due hc]
    have bytes : s.entryBytes c = s.ownFrame c e := by simp only [State.entryBytes, he]
    simp only [State.startChoice, bytes]
    rfl
  · have nothing : s.choiceDue p = false := by
      have none : s.arbiter p = none := by
        cases h : s.arbiter p with
        | none => rfl
        | some c => exact absurd (Arbitrated.of_arbiter h).1 (owesNone c)
      simp only [x] at empty
      simp [State.choiceDue, none, empty]
    simp [exec, execChoicePoint, nothing]
  · obtain ⟨d, hd⟩ := State.arbiter_of_owed hc
    exact ⟨d, .of_arbiter hd⟩

end Sys2Proof.Machine

/-! Fields of several bytes, whole frames, and a relayed frame as it leaves (R3, R15, R23). -/

namespace Sys2Proof.Machine

/-! ### Fields, high byte first (R23) -/

theorem beValue_append_singleton (bs : List Byte) (b : Byte) : beValue (bs ++ [b]) = beValue bs * 256 + b.toNat := by
  simp [beValue]

/-- The last byte of a field is the value's low byte. -/
theorem beBytes_succ (n v : Nat) : beBytes (n + 1) v = beBytes n (v / 256) ++ [BitVec.ofNat 8 v] := by
  simp only [beBytes, List.range_succ, List.map_append, List.map_cons, List.map_nil]
  congr 1
  · refine List.map_congr_left fun i hi => ?_
    have : n + 1 - 1 - i = (n - 1 - i) + 1 := by have := List.mem_range.mp hi; omega
    rw [this, Nat.pow_succ, Nat.mul_comm, Nat.div_div_eq_div_mul]
  · simp

@[simp] theorem beBytes_length (n v : Nat) : (beBytes n v).length = n := by
  simp [beBytes]

/-- A field holds its value modulo what fits it. -/
theorem beValue_beBytes (n v : Nat) : beValue (beBytes n v) = v % 256 ^ n := by
  induction n generalizing v with
  | zero => simp [beBytes, beValue, Nat.mod_one]
  | succ n ih =>
    rw [beBytes_succ, beValue_append_singleton, ih, Nat.pow_succ', Nat.mod_mul, BitVec.toNat_ofNat]
    omega

theorem fieldAt_append_right (as bs : List Byte) (n : Nat) : fieldAt (as ++ bs) as.length n = fieldAt bs 0 n := by
  simp [fieldAt]

theorem fieldAt_beBytes_append (n v : Nat) (bs : List Byte) : fieldAt (beBytes n v ++ bs) 0 n = v % 256 ^ n := by
  rw [fieldAt, List.drop_zero, List.take_left' (beBytes_length n v), beValue_beBytes]

/-! ### A whole frame (R3) -/

variable (covered : List Byte)

theorem sealFrame_eq : sealFrame covered = lead :: (covered ++ beBytes 2 (crc covered).toNat) := rfl

@[simp] theorem sealFrame_length : (sealFrame covered).length = covered.length + 3 := by
  simp [sealFrame_eq]

theorem sealFrame_getD_succ {i : Nat} (h : i < covered.length) :
    (sealFrame covered).getD (i + 1) 0 = covered.getD i 0 := by
  rw [sealFrame_eq, List.getD_cons_succ, getD_append_of_lt _ h]

/-- What the check of a whole frame covers. -/
theorem sealFrame_covered : ((sealFrame covered).take ((sealFrame covered).length - 2)).drop 1 = covered := by
  rw [sealFrame_length, sealFrame_eq]
  simp

/-- Its last two bytes are the check. -/
theorem sealFrame_check :
    fieldAt (sealFrame covered) ((sealFrame covered).length - 2) 2 = (crc covered).toNat := by
  have at' : (sealFrame covered).length - 2 = (lead :: covered).length := by simp
  have split : sealFrame covered = (lead :: covered) ++ (beBytes 2 (crc covered).toNat ++ []) := by simp [sealFrame_eq]
  rw [at', split, fieldAt_append_right, fieldAt_beBytes_append]
  exact Nat.mod_eq_of_lt (crc covered).isLt

/-! ### The edit of a relayed frame (R15) -/

variable {r : RelayFrame} (now : Nat)

/-- The bytes the check covers of a relayed frame as it leaves. -/
def RelayFrame.edited (r : RelayFrame) (now : Nat) : List Byte :=
  let hopped := (coveredBytes r.bytes).set 4 ((coveredBytes r.bytes).getD 4 0 + 1)
  if isBeaconFrame r.bytes then hopped.take 16 ++ beBytes 3 (raisedCorrection r now) ++ hopped.drop 19 else hopped

theorem relayEdit_eq : relayEdit r now = sealFrame (r.edited now) := rfl

theorem isBeaconFrame_iff {bs : List Byte} : isBeaconFrame bs = true ↔ bs.getD 1 0 = 0x01 ∧ bs.length = 23 := by
  simp [isBeaconFrame]

theorem coveredBytes_length (bs : List Byte) : (coveredBytes bs).length = bs.length - 3 := by
  simp [coveredBytes]
  omega

theorem coveredBytes_getD (bs : List Byte) {i : Nat} (h : i + 3 < bs.length) :
    (coveredBytes bs).getD i 0 = bs.getD (i + 1) 0 := by
  simp only [coveredBytes, List.getD_eq_getElem?_getD, List.getElem?_drop, List.getElem?_take]
  rw [if_pos (by omega), Nat.add_comm]

theorem RelayFrame.edited_length : (r.edited now).length = r.bytes.length - 3 := by
  simp only [RelayFrame.edited]
  split
  · next beacon =>
    obtain ⟨-, len⟩ := isBeaconFrame_iff.mp beacon
    simp [coveredBytes_length, len]
  · simp [coveredBytes_length]

/-- Every byte that the check covers but the correction leaves as it arrived, the hops field one greater. -/
theorem RelayFrame.edited_getD {i : Nat} (hi : i + 3 < r.bytes.length)
    (plain : ¬ (isBeaconFrame r.bytes = true ∧ 16 ≤ i ∧ i < 19)) :
    (r.edited now).getD i 0 = if i = 4 then r.bytes.getD 5 0 + 1 else r.bytes.getD (i + 1) 0 := by
  have length := coveredBytes_length r.bytes
  have hopped : ((coveredBytes r.bytes).set 4 ((coveredBytes r.bytes).getD 4 0 + 1)).getD i 0 =
      if i = 4 then r.bytes.getD 5 0 + 1 else r.bytes.getD (i + 1) 0 := by
    rw [← coveredBytes_getD r.bytes hi]
    split
    · next h4 =>
      subst h4
      rw [← coveredBytes_getD r.bytes hi]
      simp only [List.getD_eq_getElem?_getD, List.getElem?_set_self (show 4 < (coveredBytes r.bytes).length by omega),
        Option.getD_some]
    · next h4 => simp only [List.getD_eq_getElem?_getD, List.getElem?_set_ne (Ne.symm h4)]
  rw [← hopped]
  simp only [RelayFrame.edited]
  split
  · next beacon =>
    obtain ⟨-, len⟩ := isBeaconFrame_iff.mp beacon
    simp only [beacon, true_and, not_and, Nat.not_lt] at plain
    simp only [List.getD_eq_getElem?_getD]
    by_cases before : i < 16
    · rw [List.append_assoc, List.getElem?_append_left (by simp; omega), List.getElem?_take, if_pos before]
    · have last : i = 19 := by have := plain (by omega); omega
      subst last
      rw [List.getElem?_append_right (by rw [List.length_append, List.length_take, beBytes_length]; omega),
        List.getElem?_drop]
      simp [length, len]
  · rfl

/-- The correction of a BEACON as it leaves stands in its own field. -/
theorem relayEdit_correction (beacon : isBeaconFrame r.bytes = true) :
    fieldAt (relayEdit r now) 17 3 = raisedCorrection r now := by
  obtain ⟨-, len⟩ := isBeaconFrame_iff.mp beacon
  have length := coveredBytes_length r.bytes
  let hopped := (coveredBytes r.bytes).set 4 ((coveredBytes r.bytes).getD 4 0 + 1)
  have split : relayEdit r now = (lead :: hopped.take 16) ++
      (beBytes 3 (raisedCorrection r now) ++ (hopped.drop 19 ++ beBytes 2 (crc (r.edited now)).toNat)) := by
    rw [relayEdit_eq, sealFrame_eq]
    simp [RelayFrame.edited, beacon, hopped]
  have at' : 17 = (lead :: hopped.take 16).length := by simp [hopped, length, len]
  rw [split, at', fieldAt_append_right, fieldAt_beBytes_append]
  refine Nat.mod_eq_of_lt ?_
  simp only [raisedCorrection]
  omega

/-- Settles O11: every byte of the edited frame, its correction and its check. -/
theorem relayedBytes : Obligations.RelayedBytes := by
  intro r now len leads out isBeacon
  have long : 9 ≤ r.bytes.length := by omega
  have length : (r.edited now).length = r.bytes.length - 3 := r.edited_length now
  have whole : out = sealFrame (r.edited now) := relayEdit_eq now
  have byte : ∀ i, i + 3 < r.bytes.length → ¬ (isBeacon ∧ 16 ≤ i ∧ i < 19) →
      out.getD (i + 1) 0 = if i = 4 then r.bytes.getD 5 0 + 1 else r.bytes.getD (i + 1) 0 := by
    intro i hi plain
    rw [whole, sealFrame_getD_succ _ (by omega)]
    exact r.edited_getD now hi (by rwa [isBeaconFrame_iff])
  refine ⟨?_, ?_, fun i hi h5 plain => ?_, fun beacon => ?_, ?_⟩
  · rw [whole, sealFrame_length]
    omega
  · exact byte 4 (by omega) (by omega)
  · cases i with
    | zero => rw [whole, leads]; rfl
    | succ i => rw [byte i (by omega) fun ⟨b, lo, hi⟩ => plain ⟨b, by omega, by omega⟩, if_neg (by omega)]
  · have chars : serialization r.bytes.length = 77 := by rw [beacon.2]; rfl
    rw [relayEdit_correction now (isBeaconFrame_iff.mpr beacon), raisedCorrection, chars, Nat.add_assoc]
  · rw [whole, sealFrame_check, sealFrame_covered]

end Sys2Proof.Machine

/-! A transmission's bits, and what its end does: the read pointer moves past a relayed frame, and a port joins the
sent set of an own frame's entry (R1, R12, R16, R20). -/

namespace Sys2Proof.Machine

variable {s : State} {p : Port} {c : FrameClass} {t : Transmission}

/-! ### The bits of a transmission (R1) -/

theorem State.transmitBit_of_current (h : (s.ports.get p).tx.current = some t) :
    s.transmitBit p = t.bitAt s.clock.thirds := by
  simp only [State.transmitBit, h]

theorem transmissionBits (s : State) (p : Port) :
    ((s.ports.get p).tx.current = none → s.transmitBit p = .idle) ∧
    ∀ t, (s.ports.get p).tx.current = some t →
      (t.started + 10 * t.bytes.length ≤ s.clock.thirds → s.transmitBit p = .idle) ∧
      ∀ (k : Nat) (b : Byte), t.bytes[k]? = some b →
        (s.clock.thirds = t.started + 10 * k → s.transmitBit p = .start) ∧
        (∀ i, i < 8 → s.clock.thirds = t.started + 10 * k + 1 + i → s.transmitBit p = .data (b.getLsbD i)) ∧
        (s.clock.thirds = t.started + 10 * k + 9 → s.transmitBit p = .stop) := by
  refine ⟨fun h => by simp only [State.transmitBit, h], fun t h => ?_⟩
  rw [State.transmitBit_of_current h]
  refine ⟨fun ended => t.bitAt_ended ended, fun k b hb => ⟨fun now => ?_, fun i hi now => ?_, fun now => ?_⟩⟩
  · rw [now, t.bitAt_start hb]
  · rw [now, t.bitAt_data hb hi]
  · rw [now, t.bitAt_stop hb]

/-! ### A relayed frame's end (R16) -/

theorem exec_relayedFrameSent (h : (s.ports.get p).tx.current = some t) (relayed : t.source = .relayed)
    (ended : t.endsAt ≤ s.clock.thirds) : exec (.relayedFrameSent p) s = .next (s.relayedSent p) := by
  simp [exec, execRelayedFrameSent, State.relayEnded, h, relayed, ended]

/-! ### An own frame's end (R20) -/

theorem exec_ownFrameSent (h : (s.ports.get p).tx.current = some t) {present : Bool} (own : t.source = .own c present)
    (ended : t.endsAt ≤ s.clock.thirds) : exec (.ownFrameSent p) s = .next (s.ownSent p) := by
  have source : t.source ≠ .relayed := by simp [own]
  simp [exec, execOwnFrameSent, State.ownEnded, h, source, ended]

/-- The transmitter's line is idle from the end of its transmission. -/
theorem Transmitter.finish_of_current {x : Transmitter} (h : x.current = some t) :
    x.finish = { x with current := none, lastEnded := some (t.started + 10 * t.bytes.length) } := by
  simp [Transmitter.finish, h, Transmission.endsAt]

/-- A port joins the sent set of a pending entry, which is freed once that covers its waited set (R20). -/
theorem State.joinSent_of_entry {e : Entry} (he : (s.outbox.get c).entry = some e) :
    let sent := e.sent.set p true
    let s1 := s.tallyPort p fun k => { k with ownFramesOut := sat k.ownFramesOut }
    s.joinSent p c =
      if (e.waited.a = true → sent.a = true) ∧ (e.waited.b = true → sent.b = true) then s1.freeEntry c e.entryTime
      else { s1 with outbox := s.outbox.set c { s.outbox.get c with entry := some { e with sent := sent } } } := by
  intro sent s1
  simp only [State.joinSent, he, State.freeIfCovered, State.tallyPort_outbox, State.withOutbox_outbox,
    Outbox.get_set_self, portsWithin_iff]
  split
  · rw [State.freeEntry_eq, State.freeEntry_eq]
    simp only [State.tallyPort_outbox, State.withOutbox_outbox, Outbox.set_set]
    rfl
  · rfl

/-- Settles O12: the bits of a transmission, the end of a relayed frame's, and that of an own frame's. -/
theorem transmissionEnds : Obligations.TransmissionEnds := by
  refine ⟨transmissionBits, ?_⟩
  intro s p t x ended tx up current past
  refine ⟨fun r rest relayed committed => ?_, fun c own => ?_, fun c e own he => ?_⟩
  · rw [exec_relayedFrameSent current relayed past]
    have advanced : x.fifo.advance = { x.fifo with
        readPtr := (x.fifo.readPtr + r.bytes.length) % 512, committed := rest } := by
      simp only [RelayFifo.advance, committed]
    simp only [State.relayedSent, tx, ← advanced, ended, ← Transmitter.finish_of_current current]
    cases p <;> rfl
  · rw [exec_ownFrameSent current own past]
    have source : x.tx.source = some (.own c false) := by simp [Transmitter.source, x, current, own]
    simp only [State.ownSent, tx, ended, ← Transmitter.finish_of_current current]
    rw [source]
    rfl
  · rw [exec_ownFrameSent current own past]
    have source : x.tx.source = some (.own c true) := by simp [Transmitter.source, x, current, own]
    let s0 : State := { s with ports := s.ports.set p { x with tx := tx } }
    have finished : s.mapTx p Transmitter.finish = s0 := by
      simp only [s0, tx, ended, ← Transmitter.finish_of_current current]
      rfl
    have joined := State.joinSent_of_entry (s := s0) (p := p) (c := c) he
    simp only [State.freeEntry_eq] at joined
    simp only [State.ownSent]
    rw [source]
    dsimp only
    rw [finished, joined]
    rfl

end Sys2Proof.Machine

/-! Frames that no consumer takes, and the table of frame kinds (R9, R10). -/

namespace Sys2Proof.Machine

variable {s : State} {k : FrameKind} {f : Frame}

/-! ### Handing on (R9, R10) -/

/-- Every consumer is given its frame by the tests of R9 and R10. -/
theorem State.consume_eq_handOn (s : State) (k : FrameKind) (f : Frame) :
    ∃ g, s.consume (some k) f = s.handOn k f g := by
  cases k
  all_goals
    simp only [State.consume, State.receiveBeacon, State.receiveMoveNote, State.receiveMatchNote, State.receiveFeedNote,
      State.receiveCueLoad, State.receiveCueGo, State.receiveCueRelease, State.receiveCueClear, State.receiveProtect,
      State.receiveHomeAsk, State.receiveStatusAsk, State.receiveRestart, State.receiveSetup]
    exact ⟨_, rfl⟩

/-- A frame that a configured station does not accept changes nothing (R9). -/
theorem handOn_of_not_addressed (hc : s.setup.configured = true) (h : ¬ Addressed s f) (g : State → State) :
    s.handOn k f g = s := by
  rw [State.handOn, if_neg fun accepted => h (addressed_of_accepts hc accepted)]

/-! ### The table of kinds (R10) -/

theorem kindTable_kindOfCode : ∀ row ∈ kindTable, kindOfCode row.code = some row.kind := by decide

theorem kindTable_lengths : ∀ row ∈ kindTable, row.kind.lengths = (row.shortest, row.longest) := by decide

theorem rowOfCode_cons (row : KindRow) (rows : List KindRow) (code : Byte) :
    ((row :: rows).find? fun r => decide (code = r.code)).map KindRow.kind =
      if code = row.code then some row.kind else (rows.find? fun r => decide (code = r.code)).map KindRow.kind := by
  rw [List.find?_cons]
  by_cases h : code = row.code <;> simp [h]

/-- The kind of a code is that of the first row with the code. -/
theorem kindOfCode_eq (code : Byte) :
    kindOfCode code = (kindTable.find? fun r => decide (code = r.code)).map KindRow.kind := by
  simp only [kindTable, rowOfCode_cons]
  rfl

theorem kindOfCode_iff {code : Byte} :
    kindOfCode code = some k ↔ ∃ row ∈ kindTable, row.kind = k ∧ row.code = code := by
  constructor
  · intro h
    rw [kindOfCode_eq] at h
    obtain ⟨row, found, kind⟩ := Option.map_eq_some_iff.mp h
    have code_eq := List.find?_some found
    exact ⟨row, List.mem_of_find?_eq_some found, kind, (of_decide_eq_true code_eq).symm⟩
  · rintro ⟨row, mem, rfl, rfl⟩
    exact kindTable_kindOfCode row mem

theorem exists_row (k : FrameKind) : ∃ row ∈ kindTable, row.kind = k := by
  cases k <;> simp [kindTable]

/-- Settles O13: the two ways a frame is not handed on, the STATUS-REPLY, and the table row by row. -/
theorem framesNotHandedOn : Obligations.FramesNotHandedOn := by
  refine ⟨fun s k f configured stranger => ?_, fun s k f addressed wrong => ?_, fun s f taken => ?_, fun code k => ?_,
    fun k n => ?_⟩
  · obtain ⟨g, hg⟩ := s.consume_eq_handOn k f
    rw [exec_commandOf, hg, handOn_of_not_addressed configured stranger]
  · obtain ⟨g, hg⟩ := s.consume_eq_handOn k f
    rw [exec_commandOf, hg, handOn_of_badSize addressed wrong]
  · exact congrArg Host.Outcome.next (handOn_of_taken taken)
  · exact kindOfCode_iff
  · constructor
    · intro h
      obtain ⟨row, mem, rfl⟩ := exists_row k
      rw [kindTable_lengths row mem] at h
      exact ⟨row, mem, rfl, h⟩
    · rintro ⟨row, mem, rfl, h⟩
      rw [kindTable_lengths row mem]
      exact h

end Sys2Proof.Machine

/-! What the block places of its own accord: the BEACON of the beacon timer, and the periodic MATCH-NOTE and FEED-NOTE
(R18, R49, R119, R120, R168). -/

namespace Sys2Proof.Machine

variable (s : State)

/-! ### BEACON_TIMER (R49) -/

/-- A BEACON's payload as it is placed: its station kind first, and its correction and interval last (R49). -/
theorem State.placedBeacon_fields :
    s.placedBeacon.length = 14 ∧ s.placedBeacon.getD 0 0 = 1 ∧
      s.placedBeacon.drop 10 = [0, 0, 0, BitVec.ofNat 8 (s.settings.beaconInterval / 10)] := by
  simp only [State.placedBeacon, buildBeacon, beBytes_one]
  exact ⟨rfl, rfl, rfl⟩

theorem State.placedAt_eq (c : FrameClass) :
    s.placedAt c = ((s.outbox.get c).entry.map fun e => e.entryTime).getD (s.clock.thirds / 3000) := by
  unfold State.placedAt
  cases (s.outbox.get c).entry <;> rfl

theorem State.portsUp_eq_noPort : s.portsUp = noPort ↔ s.ports.a.up = false ∧ s.ports.b.up = false := by
  simp [State.portsUp, noPort, bothPorts]

/-- A BEACON's placement reaches the outbox and the transmissions it supersedes, and no more. -/
theorem State.placeBeacon_eq :
    s.placeBeacon = (s.supersede .beacon).withOutbox s.placeBeacon.outbox :=
  s.place_eq .beacon toAll s.placedBeacon (.inr rfl)

theorem State.placeBeacon_entered : BeaconEntered s s.placeBeacon := by
  obtain ⟨length, kind, fields⟩ := s.placedBeacon_fields
  refine ⟨⟨_, s.place_outbox .beacon toAll s.placedBeacon (.inr rfl), rfl, length, kind, fields, rfl, rfl, ?_,
    s.placedAt_eq .beacon⟩, ?_, fun p => ?_⟩
  · exact ite_congr (propext s.portsUp_eq_noPort) (fun _ => rfl) fun _ => rfl
  · rw [State.placeBeacon_eq]
    simp
  · rw [State.placeBeacon_eq]
    simp only [State.withOutbox_ports, State.supersede_port, Transmitter.supersede_eq]

/-- Settles O19: the placement, and the beacon time moved on. -/
theorem beaconPlaced : Obligations.BeaconPlaced := by
  intro s n hn due
  have reached : s.reached s.clock.nextBeacon = true := by
    rw [hn]
    exact decide_eq_true due
  refine ⟨s.beaconTick, by simp [exec, execBeaconTimer, reached], s.placeBeacon_entered, ?_⟩
  rw [State.beaconTick, State.placeBeacon_eq]
  apply State.ext <;> simp [hn]

/-! ### NEXT_MATCH_TIME and NEXT_NOTE_TIME (R120, R168) -/

/-- A flag byte of two flags. -/
theorem flagByte_pair (x y : Bool) :
    flagByte [x, y] = BitVec.ofNat 8 ((if x then 1 else 0) + if y then 2 else 0) := by
  cases x <;> cases y <;> rfl

theorem buildMatchNote_eq (n : Announcement) :
    buildMatchNote n =
      [BitVec.ofNat 8 n.group, BitVec.ofNat 8 ((if n.outOfMatch then 1 else 0) + if n.pulled then 2 else 0)] ++
        beBytes 2 n.ceilings.red ++ beBytes 2 n.ceilings.green ++ beBytes 2 n.ceilings.blue ++
        beBytes 2 n.ceilings.white := by
  simp [buildMatchNote, beBytes_one, flagByte_pair, emitterBytes]

theorem buildFeedNote_eq (n : FeedNoteFields) :
    buildFeedNote n =
      [BitVec.ofNat 8 n.circuit] ++ beBytes 2 n.claim ++
        [BitVec.ofNat 8 ((if n.tripped then 1 else 0) + if n.settling then 2 else 0)] := by
  simp only [buildFeedNote, beBytes_one, flagByte_pair]

/-- Settles O40: both notes are sent with none owed after them. -/
theorem periodicNotes : Obligations.PeriodicNotes := by
  intro s up
  refine ⟨fun due => ?_, fun due shared => ?_⟩
  · have matchDue := s.matchNoteDue_iff.mpr due
    obtain ⟨colour, placed, stats, frame⟩ := s.sendMatchNote_spec false
    refine ⟨s.sendMatchNote false, by simp [exec, execNextMatchTime, matchDue], colour, ?_, ?_, frame⟩
    · rw [buildMatchNote_eq] at placed
      exact placed
    · rw [stats]
      simp [State.counter, sat]
      split <;> rfl
  · have feedDue := s.feedNoteDue_iff.mpr due
    obtain ⟨feed, placed, stats, frame⟩ := s.sendFeedNote_spec false shared
    refine ⟨s.sendFeedNote false, by simp [exec, execNextNoteTime, feedDue], ?_, feed, ?_, frame⟩
    · rw [State.feedNotePayload, buildFeedNote_eq] at placed
      exact placed
    · rw [stats]
      simp [State.counter, sat]
      split <;> rfl

end Sys2Proof.Machine

/-! A SETUP: whether it writes its page, and what the record reads afterwards (R176, R178). -/

namespace Sys2Proof.Machine

variable {s : State} {f : Frame}

/-! ### The record after a page is written (R176, R178) -/

/-- Bytes written over a canonical record are read back at their own addresses, but for those of the serial. -/
theorem readCell_writeRecord (bs : List Byte) (m : List Host.Cell) (a c : Nat) (h : Memory.wf m = true)
    (fits : a + bs.length ≤ 256) :
    readCell (writeRecord m a bs) c =
      if a ≤ c ∧ c < a + bs.length ∧ isSerialAddress c = false then bs.getD (c - a) 0 else readCell m c := by
  induction bs generalizing m a with
  | nil => rw [if_neg (by simp; omega)]; rfl
  | cons b rest ih =>
    simp only [List.length_cons] at fits
    rw [writeRecord, ih _ _ (writeRecordByte_wf m a b h (by omega)) (by omega), readCell_writeRecordByte m a c b h]
    rw [List.length_cons]
    by_cases inside : a ≤ c ∧ c < a + (rest.length + 1) ∧ isSerialAddress c = false
    · obtain ⟨low, high, plain⟩ := inside
      rw [if_pos (show _ ∧ _ from ⟨low, high, plain⟩)]
      by_cases here : c = a
      · subst here
        rw [if_neg (by omega), if_pos ⟨rfl, plain⟩, Nat.sub_self, List.getD_cons_zero]
      · rw [if_pos ⟨by omega, by omega, plain⟩, show c - a = c - (a + 1) + 1 by omega, List.getD_cons_succ]
    · rw [if_neg inside, if_neg fun h => inside ⟨by omega, by omega, h.2.2⟩, if_neg]
      rintro ⟨rfl, plain⟩
      exact inside ⟨by omega, by omega, plain⟩

theorem State.storeByte_of_serial {a : Nat} (h : isSerialAddress a = true) (s t : State) :
    s.storeByte a = t.storeByte a := by
  have : 2 ≤ a ∧ a < 10 := by simpa [isSerialAddress] using h
  simp [State.storeByte, this]

theorem State.storeByte_of_not_serial {a : Nat} (h : isSerialAddress a = false) (s : State) :
    s.storeByte a = readCell s.store a := by
  have : ¬ (2 ≤ a ∧ a < 10) := by
    intro both
    simp [isSerialAddress, both] at h
  rw [State.storeByte, dif_neg this]

/-! ### Which SETUP is taken, and which writes (R9, R178) -/

/-- A station takes a SETUP of the right size that is addressed to it, and unconfigured one sent to 255 (R9). -/
theorem receiveSetup_eq (read : s.setup.readDone = true) (size : RightSize .setup f)
    (sent : Addressed s f ∨ (s.setup.configured = false ∧ 1 ≤ f.origin.toNat ∧ f.origin.toNat ≤ 250 ∧
      f.dest.toNat = 255 ∧ s.settings.station = 0)) :
    s.receiveSetup f = (s.heard f).takeSetup (readSetup f.payload) := by
  rcases sent with addressed | ⟨unconfigured, low, high, toAll', station⟩
  · exact handOn_of_taken ⟨addressed, size⟩
  · have dest : f.dest = toAll := BitVec.eq_of_toNat_eq toAll'
    have accepted : s.accepts .setup f = true := by
      simp [State.accepts, State.isOwnEcho, Frame.originIsStation, read, unconfigured, low, high, dest, station]
    rw [State.receiveSetup, State.handOn, if_pos accepted, if_pos (sizeOk_iff.mpr size)]
    rfl

/-- The 32 bytes of a page follow the serial and the page number (R23). -/
theorem readSetup_data_getD (p : List Byte) {i : Nat} (h : i < 32) :
    (readSetup p).data.getD i 0 = p.getD (9 + i) 0 := by
  simp only [readSetup, List.getD_eq_getElem?_getD, List.getElem?_take, if_pos h, List.getElem?_drop]

theorem State.setupWrites_iff (s : State) (x : SetupFields) :
    s.setupWrites x = true ↔
      x.serial = serialBytes ∧ x.page ≤ 7 ∧ (s.pins.setupLine = true ∨ s.setup.configured = false) := by
  simp only [State.setupWrites, Bool.and_eq_true, beq_iff_eq, decide_eq_true_eq, Bool.or_eq_true, Bool.not_eq_true',
    and_assoc]

/-- Settles O57: a SETUP that writes, byte by byte of the record, and one that does not. -/
theorem setupPage : Obligations.SetupPage := by
  intro s f holds read size sent page writes
  have taken : exec (.setup f) s = .next ((s.heard f).takeSetup (readSetup f.payload)) :=
    congrArg Host.Outcome.next (receiveSetup_eq read size sent)
  have length : f.payload.length = 41 := by
    obtain ⟨low, high⟩ := size
    exact Nat.le_antisymm high low
  have writes_iff : (s.heard f).setupWrites (readSetup f.payload) = true ↔ writes := State.setupWrites_iff _ _
  rw [taken]
  refine ⟨fun hw => ?_, fun hw => ?_⟩
  · obtain ⟨-, low, -⟩ := id hw
    have dataLength : (readSetup f.payload).data.length = 32 := by simp [readSetup, length]
    have cell : ∀ c, readCell (writeRecord s.store (32 * page) (readSetup f.payload).data) c =
        if 32 * page ≤ c ∧ c < 32 * page + 32 ∧ isSerialAddress c = false
        then f.payload.getD (9 + (c - 32 * page)) 0 else readCell s.store c := by
      intro c
      rw [readCell_writeRecord _ _ _ _ holds (by omega), dataLength]
      split
      · exact readSetup_data_getD _ (by omega)
      · rfl
    let t := (s.heard f).takeSetup (readSetup f.payload)
    have ht : t = ((s.heard f).withStore (writeRecord s.store (32 * page) (readSetup f.payload).data)).tallySetup
        fun k => { k with written := sat k.written } := by
      simp only [t, State.takeSetup]
      rw [if_pos (writes_iff.mpr hw)]
      rfl
    have byte : ∀ a, isSerialAddress a = false → t.storeByte a =
        if 32 * page ≤ a ∧ a < 32 * page + 32 ∧ isSerialAddress a = false
        then f.payload.getD (9 + (a - 32 * page)) 0 else s.storeByte a := by
      intro a plain
      rw [t.storeByte_of_not_serial plain, s.storeByte_of_not_serial plain, ← cell, ht]
      rfl
    refine ⟨t, rfl, fun i hi outside => ?_, fun i low high => ?_, fun a outside => ?_, ?_⟩
    · have plain : isSerialAddress (32 * page + i) = false := by
        simp [isSerialAddress]
        omega
      rw [byte _ plain, if_pos ⟨by omega, by omega, plain⟩, Nat.add_sub_cancel_left]
    · exact State.storeByte_of_serial (by simp [isSerialAddress, low, high]) t s
    · cases serial : isSerialAddress a with
      | true => exact State.storeByte_of_serial serial t s
      | false => rw [byte a serial, if_neg (by omega)]
    · rw [ht]
      rfl
  · rw [State.takeSetup, if_neg (by rwa [writes_iff])]
    rfl

end Sys2Proof.Machine

/-! A STATUS-ASK: the parts of the status pages, read as the fields of R182 one after the other, the reply that
carries one, and the flags (R180 to R182). -/

namespace Sys2Proof.Machine

/-! ### Fields one after the other (R182) -/

/-- The bytes of fields of given sizes and values, one after the other. -/
def reportBytes (fields : List (Nat × Int)) : List Byte :=
  (fields.map fun x => statusSigned x.1 x.2).flatten

theorem reportBytes_append (xs ys : List (Nat × Int)) :
    reportBytes (xs ++ ys) = reportBytes xs ++ reportBytes ys := by
  simp [reportBytes]

theorem reportBytes_singleton (size : Nat) (v : Int) : reportBytes [(size, v)] = statusSigned size v := by
  simp [reportBytes]

/-- An unsigned field is a signed one of a value that is not negative. -/
theorem statusField_eq (size n : Nat) : statusField size n = statusSigned size (n : Int) := by
  have low : -((256 ^ size / 2 : Nat) : Int) ≤ (n : Int) :=
    Int.le_trans (Int.neg_nonpos_of_nonneg (Int.natCast_nonneg _)) (Int.natCast_nonneg n)
  by_cases h : n < 256 ^ size
  · have high : (n : Int) < (256 ^ size : Nat) := by exact_mod_cast h
    rw [statusField, if_pos h, statusSigned, if_pos ⟨low, high⟩, beSigned,
      Int.emod_eq_of_lt (Int.natCast_nonneg n) high, Int.toNat_natCast]
  · have high : ¬ (n : Int) < (256 ^ size : Nat) := by exact_mod_cast h
    rw [statusField, if_neg h, statusSigned, if_neg fun both => high both.2]

theorem statusSigned_length (size : Nat) (v : Int) : (statusSigned size v).length = size := by
  unfold statusSigned beSigned
  split <;> exact beBytes_length _ _

/-- A field that its value fits reads back, in two's complement. -/
theorem fieldAt_statusSigned (size : Nat) (v : Int) (bs : List Byte) (low : -(256 ^ size / 2 : Nat) ≤ v)
    (high : v < (256 ^ size : Nat)) :
    (fieldAt (statusSigned size v ++ bs) 0 size : Int) = v % (256 ^ size : Nat) := by
  have pos : (0 : Int) < (256 ^ size : Nat) := Int.natCast_pos.mpr (Nat.pow_pos (by decide))
  have nonneg := Int.emod_nonneg v (Int.ne_of_gt pos)
  rw [statusSigned, if_pos ⟨low, high⟩, beSigned, fieldAt_beBytes_append, Int.natCast_emod,
    Int.toNat_of_nonneg nonneg, Int.emod_emod_of_dvd _ (Int.dvd_refl _)]

theorem fieldsRead_reportBytes (fields : List (Nat × Int)) : FieldsRead (reportBytes fields) fields := by
  induction fields with
  | nil => rfl
  | cons x rest ih =>
    obtain ⟨size, v⟩ := x
    rw [← List.singleton_append, reportBytes_append, reportBytes_singleton]
    refine ⟨by simp [statusSigned_length], fieldAt_statusSigned size v _, ?_⟩
    rwa [List.drop_left' (statusSigned_length size v)]

/-- Unsigned fields of one size, one after the other. -/
theorem statusFields_eq (size : Nat) (ns : List Nat) :
    (ns.map (statusField size)).flatten = reportBytes (ns.map fun (n : Nat) => (size, (n : Int))) := by
  induction ns with
  | nil => rfl
  | cons n ns ih =>
    rw [List.map_cons, List.flatten_cons, ih, List.map_cons, ← List.singleton_append, reportBytes_append,
      reportBytes_singleton, statusField_eq]

theorem counterFields_eq (cs : List Nat) :
    counterFields cs = reportBytes (cs.map fun (n : Nat) => ((2 : Nat), (n : Int))) :=
  statusFields_eq 2 cs

/-! ### Flag bytes -/

theorem sum_zipIdx_flags (bits : List Bool) (k : Nat) :
    ((bits.zipIdx k).map fun b => if b.1 then 2 ^ b.2 else 0).sum =
      2 ^ k * bits.foldr (fun b v => v * 2 + if b then 1 else 0) 0 := by
  induction bits generalizing k with
  | nil => rfl
  | cons b bits ih =>
    rw [List.zipIdx_cons, List.map_cons, List.sum_cons, ih, List.foldr_cons, Nat.pow_succ, Nat.mul_add, Nat.mul_assoc,
      Nat.mul_comm 2]
    cases b with
    | false => exact Nat.add_comm _ _
    | true => rw [if_pos rfl, if_pos rfl, Nat.mul_one, Nat.add_comm]

/-- The value of a flag byte's flags, with its bit 0 first. -/
theorem flagsOf_eq_foldr (bits : List Bool) :
    flagsOf bits = bits.foldr (fun b v => v * 2 + if b then 1 else 0) 0 := by
  rw [flagsOf, sum_zipIdx_flags, Nat.pow_zero, Nat.one_mul]

theorem flagsOf_lt (bits : List Bool) : flagsOf bits < 2 ^ bits.length := by
  rw [flagsOf_eq_foldr]
  induction bits with
  | nil => exact Nat.one_pos
  | cons b bits ih =>
    rw [List.foldr_cons, List.length_cons, Nat.pow_succ]
    split <;> omega

theorem flagByte_eq (bits : List Bool) : flagByte bits = BitVec.ofNat 8 (flagsOf bits) := by
  rw [flagByte, flagsOf_eq_foldr]

theorem flagsOf_lt_256 {bits : List Bool} (h : bits.length ≤ 8) : flagsOf bits < 256 :=
  Nat.lt_of_lt_of_le (flagsOf_lt bits) (Nat.pow_le_pow_right (by decide) h)

theorem flagByte_toNat {bits : List Bool} (h : bits.length ≤ 8) : (flagByte bits).toNat = flagsOf bits := by
  rw [flagByte_eq, BitVec.toNat_ofNat, Nat.mod_eq_of_lt (flagsOf_lt_256 h)]

/-- A flag byte is a field of the value of its flags. -/
theorem flagByte_field {bits : List Bool} (h : bits.length ≤ 8) : [flagByte bits] = statusSigned 1 (flagsOf bits) := by
  rw [← statusField_eq, statusField, Nat.pow_one, if_pos (flagsOf_lt_256 h), beBytes_one, flagByte_eq]

theorem flagByte_field1 (x : Bool) : [flagByte [x]] = statusSigned 1 (flagsOf [x]) :=
  flagByte_field (Nat.le_add_left 1 7)

theorem flagByte_field2 (x y : Bool) : [flagByte [x, y]] = statusSigned 1 (flagsOf [x, y]) :=
  flagByte_field (Nat.le_add_left 2 6)

theorem flagByte_field3 (x y z : Bool) : [flagByte [x, y, z]] = statusSigned 1 (flagsOf [x, y, z]) :=
  flagByte_field (Nat.le_add_left 3 5)

/-! ### The clock, the show and the peers: page 0 parts 0 and 1 -/

variable (s : State)

theorem State.clockAndCues_eq : s.clockAndCues = reportBytes (reported s 0 0) := by
  simp only [State.clockAndCues, Playback.laneCodes, statusField_eq, flagByte_field3, ← reportBytes_singleton,
    ← reportBytes_append, List.cons_append, List.nil_append]
  refine congrArg reportBytes ?_
  unfold reported
  generalize s.cues.refusal = refusal
  cases refusal <;> rfl

theorem farthestPeer_eq (peers : List PeerRecord) :
    farthestPeer peers = (peers.map fun r => r.leastHops).foldl max 0 :=
  List.foldl_map.symm

theorem groupsMeet_eq (x y : Byte) : groupsMeet x y = (x &&& y != 0) := by
  by_cases h : x &&& y = 0
  · simp only [groupsMeet, h, ne_eq, not_true_eq_false, decide_false, bne_self_eq_false]
  · rw [groupsMeet, decide_eq_true h, bne_iff_ne.mpr h]

theorem gatherFields_eq (g : Option Gather) :
    gatherFields g = reportBytes
      [(1, ((g.map fun x => x.group).getD 0 : Nat)), (2, ((g.map fun x => x.cue).getD 0 : Nat)),
       (4, (g.map fun x => x.closeTick).getD 0), (4, (g.map fun x => x.ownEnd).getD 0),
       (4, (g.map fun x => x.groupEnd).getD 0), (1, ((g.map fun x => x.notes).getD 0 : Nat))] := by
  cases g <;> simp only [gatherFields, statusField_eq, ← reportBytes_singleton, ← reportBytes_append] <;> rfl

theorem State.gatherAndPeers_eq : s.gatherAndPeers = reportBytes (reported s 0 1) := by
  simp only [State.gatherAndPeers, gatherFields_eq, State.peerSummary, statusFields_eq, statusField_eq, flagByte_field2,
    farthestPeer_eq, groupsMeet_eq, ← reportBytes_singleton, ← reportBytes_append]
  rfl

/-! ### The axes and the feed: page 0 part 2 -/

/-- The value of the mode byte of R182. -/
def modeByte (m : AxisMode) : Nat :=
  match m with
  | .unsure => 0
  | .homing .seek => 16 + 1
  | .homing .backoff => 16 + 2
  | .homing .approach => 16 + 3
  | .homing .set => 16 + 4
  | .homing .returning => 16 + 5
  | .ready => 32
  | .failed => 48
  | .tripped => 64

theorem AxisMode.code_eq (m : AxisMode) : m.code = modeByte m := by
  cases m with
  | homing p => cases p <;> rfl
  | _ => rfl

/-- The value of the capture byte of R182: the edge, the direction and the outcome. -/
def captureByte (c : Capture) : Nat :=
  (if c.edge = .fall then 1 else 0) + (if c.negative then 2 else 0) +
    match c.outcome with
    | .corrected => 0
    | .slip => 4
    | .vaneFault => 8
    | .held => 12
    | .phase => 16
    | .ignored => 20

theorem Capture.code_eq (c : Capture) : c.code = captureByte c := by
  refine (flagByte_toNat (by simp)).trans ?_
  unfold captureByte
  cases c.edge <;> cases c.negative <;> cases c.outcome <;> rfl

/-- The value of the axis flags of R182: bits 3 and 4 tell the cause of a waiting request. -/
def axisFlags (a : AxisState) : Nat :=
  flagsOf [a.mode == .tripped, a.slipPending, a.request.isSome, a.request == some .ask, a.request == some .slip,
    a.capture.isSome]

theorem AxisState.flags_eq (a : AxisState) : a.flags = axisFlags a := by
  refine (flagByte_toNat (by simp)).trans ?_
  have trip : a.tripFlag = (a.mode == .tripped) := rfl
  rw [trip, axisFlags]
  cases a.request with
  | none => rfl
  | some cause => cases cause <;> rfl

/-- The fields of a capture, each with its size. -/
def captureReport : Option Capture → List (Nat × Int)
  | none => [(1, 0), (1, 0), (3, 0), (2, 0)]
  | some c =>
    [(1, captureByte c), (1, modeByte c.mode), (3, c.microstep), (2, max (-32768) (min 32767 c.deviation))]

theorem captureFields_eq (c : Option Capture) : captureFields c = reportBytes (captureReport c) := by
  cases c with
  | none =>
    simp only [captureFields, statusField_eq, ← reportBytes_singleton, ← reportBytes_append]
    rfl
  | some c =>
    simp only [captureFields, statusField_eq, Capture.code_eq, AxisMode.code_eq,
      clampInt_eq (show (-32768 : Int) ≤ 32767 by decide), ← reportBytes_singleton, ← reportBytes_append]
    rfl

/-- The fields of an axis, each with its size. -/
def axisReport (a : AxisState) : List (Nat × Int) :=
  (1, modeByte a.mode) :: (3, a.pos16 / 16) :: (2, (a.lag.getD 65535 : Nat)) :: (1, axisFlags a) ::
    captureReport a.capture

theorem AxisState.fields_eq (a : AxisState) : a.fields = reportBytes (axisReport a) := by
  simp only [AxisState.fields, captureFields_eq, statusField_eq, AxisState.flags_eq, AxisMode.code_eq,
    ← reportBytes_singleton, ← reportBytes_append]
  rfl

theorem State.axesAndFeed_eq (k : Nat) : s.axesAndFeed = reportBytes (reported s 0 (k + 2)) := by
  simp only [State.axesAndFeed, AxisState.fields_eq, statusField_eq, flagByte_field3, ← reportBytes_singleton,
    ← reportBytes_append, List.append_assoc]
  refine congrArg reportBytes ?_
  rw [← List.append_assoc]
  rfl

/-! ### The counters: pages 1 and 2 -/

theorem State.linkCounters_eq : s.linkCounters = reportBytes (reported s 1 0) := by
  simp only [State.linkCounters, PortStats.fields, statusField_eq, counterFields_eq, flagByte_field2,
    ← reportBytes_singleton, ← reportBytes_append]
  rfl

theorem State.clockCounters_eq (k : Nat) : s.clockCounters = reportBytes (reported s 1 (k + 1)) := by
  simp only [State.clockCounters, counterFields_eq, flagByte_field1, ← reportBytes_singleton, ← reportBytes_append]
  rfl

theorem State.showCounters_eq : s.showCounters = reportBytes (reported s 2 0) := by
  simp only [State.showCounters, counterFields_eq, ← reportBytes_append]
  rfl

theorem State.planCounters_eq : s.planCounters = reportBytes (reported s 2 1) := by
  simp only [State.planCounters, counterFields_eq, ← reportBytes_append]
  rfl

theorem State.axisCounters_eq (k : Nat) : s.axisCounters = reportBytes (reported s 2 (k + 2)) := by
  simp only [State.axisCounters, AxisStats.fields, counterFields_eq, ← reportBytes_append]
  rfl

/-- What a part of a page holds are its fields, each of its size. -/
theorem State.partContent_eq (p : StatusPage) (part : Nat) :
    s.partContent p part = reportBytes (reported s p.number part) := by
  match p, part with
  | .page0, 0 => exact s.clockAndCues_eq
  | .page0, 1 => exact s.gatherAndPeers_eq
  | .page0, k + 2 => exact s.axesAndFeed_eq k
  | .page1, 0 => exact s.linkCounters_eq
  | .page1, k + 1 => exact s.clockCounters_eq k
  | .page2, 0 => exact s.showCounters_eq
  | .page2, 1 => exact s.planCounters_eq
  | .page2, k + 2 => exact s.axisCounters_eq k

/-- A reply reads as its page, its part and the fields of the part (R181, R182). -/
theorem State.replyPayload_read (p : StatusPage) :
    FieldsRead (s.replyPayload p)
      ([(1, (p.number : Int)), (1, (s.nextPart p : Int))] ++ reported s p.number (s.nextPart p)) := by
  have payload : s.replyPayload p =
      reportBytes ([(1, (p.number : Int))] ++ [(1, (s.nextPart p : Int))] ++ reported s p.number (s.nextPart p)) := by
    rw [State.replyPayload, State.partContent_eq, statusField_eq, statusField_eq, reportBytes_append,
      reportBytes_append, reportBytes_singleton, reportBytes_singleton]
  rw [payload]
  exact fieldsRead_reportBytes _

/-! ### The page an ask names, and its rotation (R181) -/

theorem statusPageOf_eq_some {n : Nat} {p : StatusPage} (h : statusPageOf n = some p) : p.number = n := by
  unfold statusPageOf at h
  split at h
  · next h0 => cases h; exact h0.symm
  split at h
  · next h1 => cases h; exact h1.symm
  split at h
  · next h2 => cases h; exact h2.symm
  · cases h

theorem statusPageOf_eq_none {n : Nat} (h : 2 < n) : statusPageOf n = none := by
  rw [statusPageOf, if_neg (by omega), if_neg (by omega), if_neg (by omega)]

theorem StatusPage.number_eq_one {p : StatusPage} : p.number = 1 ↔ p = .page1 := by
  cases p <;> decide

theorem StatusPage.after_eq (p : StatusPage) (part : Nat) :
    p.after part = if part + 1 < (if p.number = 1 then 2 else 3) then part + 1 else 0 := by
  cases p <;> rfl

theorem State.rotate_nextPart_self (p : StatusPage) : (s.rotate p).nextPart p = p.after (s.nextPart p) := by
  cases p <;> rfl

theorem State.rotate_nextPart_ne {p q : StatusPage} (h : q ≠ p) : (s.rotate p).nextPart q = s.nextPart q := by
  cases p <;> cases q <;> simp [State.rotate, State.mapSetup, State.nextPart] at h ⊢

/-- The next part of a page is a matter of the Setup Store's own state, counting apart. -/
theorem State.nextPart_congr {s t : State} {counting : Bool} (h : t.setup = { s.setup with counting := counting })
    (q : StatusPage) : t.nextPart q = s.nextPart q := by
  cases q <;> simp [State.nextPart, h]

theorem State.reportWait_eq (p : StatusPage) :
    s.reportWait p =
      { s with longestWait := if p.number = 1 ∧ s.nextPart p = 0 then 0 else s.longestWait } := by
  simp only [State.reportWait, StatusPage.number_eq_one]
  split <;> rfl

/-- The state in which the reply to an ask has been placed, and its rotation not yet moved on. -/
def State.replyPlaced (s : State) (p : StatusPage) (origin : Byte) : State :=
  (s.reportWait p).place .statusReply origin (s.replyPayload p)

theorem State.replyPlaced_notePlaced (p : StatusPage) (origin : Byte) :
    NotePlaced { s with longestWait := if p.number = 1 ∧ s.nextPart p = 0 then 0 else s.longestWait }
      (s.replyPlaced p origin) .statusReply origin (s.replyPayload p) := by
  rw [← State.reportWait_eq]
  exact (s.reportWait p).place_notePlaced .statusReply origin (s.replyPayload p) (by decide)

/-- A reply's placement reaches the outbox, the transmissions it supersedes and the longest wait, and no more. -/
theorem State.replyPlaced_eq (p : StatusPage) (origin : Byte) :
    s.replyPlaced p origin =
      { s with
        outbox := (s.replyPlaced p origin).outbox, ports := (s.replyPlaced p origin).ports,
        longestWait := (s.replyPlaced p origin).longestWait } := by
  unfold State.replyPlaced State.reportWait
  split <;> exact State.place_frame' _ .statusReply origin (s.replyPayload p) (by decide)

theorem State.reply_eq (p : StatusPage) (origin : Byte) :
    s.reply p origin =
      { s with
        outbox := (s.replyPlaced p origin).outbox, ports := (s.replyPlaced p origin).ports,
        longestWait := (s.replyPlaced p origin).longestWait, setup := (s.rotate p).setup } := by
  refine (congrArg (fun m => m.rotate p) (s.replyPlaced_eq p origin)).trans ?_
  cases p <;> rfl

/-! ### The flags of an ask (R180) -/

theorem bitOf_ofNat (v : Nat) {i : Nat} (h : i < 8) : bitOf (BitVec.ofNat 8 v) i = v.testBit i := by
  rw [bitOf, BitVec.toNat_ofNat, Nat.testBit_mod_two_pow, decide_eq_true h, Bool.true_and]

theorem countingAfter_eq (on off counting : Bool) :
    countingAfter on off counting =
      if on = true ∧ ¬ off = true then true else if off = true ∧ ¬ on = true then false else counting := by
  cases on <;> cases off <;> rfl

theorem State.applyFlags_eq (a : StatusAskFields) :
    s.applyFlags a =
      { s with
        setup := { s.setup with counting := countingAfter a.countOn a.countOff s.setup.counting },
        stats := if a.clear then Stats.zero else s.stats,
        longestWait := if a.clear then 0 else s.longestWait } := by
  unfold State.applyFlags
  cases a.clear <;> rfl

theorem State.takeStatusAsk_of_page {a : StatusAskFields} {p : StatusPage} (h : statusPageOf a.page = some p)
    (origin : Byte) : s.takeStatusAsk a origin = (s.reply p origin).applyFlags a := by
  rw [State.takeStatusAsk, h]

theorem State.takeStatusAsk_of_no_page {a : StatusAskFields} (h : 2 < a.page) (origin : Byte) :
    s.takeStatusAsk a origin = s.applyFlags a := by
  rw [State.takeStatusAsk, statusPageOf_eq_none h]

/-- Settles O58: an ask of no page, whose flags alone take effect, and one of a page, whose reply comes first. -/
theorem statusAsk : Obligations.StatusAsk := by
  intro s f taken n flag counting stats
  have handed : exec (.statusAsk f) s = .next ((s.heard f).takeStatusAsk (readStatusAsk f.payload) f.origin) :=
    congrArg Host.Outcome.next (handOn_of_taken taken)
  have flags : ∀ u : State, u.applyFlags (readStatusAsk f.payload) =
      { u with
        setup := { u.setup with
          counting := if flag 0 ∧ ¬ flag 1 then true else if flag 1 ∧ ¬ flag 0 then false else u.setup.counting },
        stats := if flag 2 then Stats.zero else u.stats, longestWait := if flag 2 then 0 else u.longestWait } := by
    intro u
    rw [u.applyFlags_eq, countingAfter_eq]
    simp only [readStatusAsk, bitOf_ofNat _ (show 0 < 8 by decide), bitOf_ofNat _ (show 1 < 8 by decide),
      bitOf_ofNat _ (show 2 < 8 by decide), flag]
  rw [handed]
  refine ⟨_, rfl, fun beyond => ?_, ?_⟩
  · rw [State.takeStatusAsk_of_no_page _ beyond]
    exact flags (s.heard f)
  · intro p hp part reset
    have number : p.number = n := statusPageOf_eq_some hp
    rw [State.takeStatusAsk_of_page _ hp, flags, State.reply_eq, ← number]
    refine ⟨?_, fun q hq => ?_, (s.heard f).replyPayload p, (s.heard f).replyPlaced p f.origin,
      (s.heard f).replyPayload_read p, rfl, ?_, ?_⟩
    · rw [← StatusPage.after_eq]
      exact (State.nextPart_congr rfl p).trans ((s.heard f).rotate_nextPart_self p)
    · exact (State.nextPart_congr rfl q).trans ((s.heard f).rotate_nextPart_ne hq)
    · refine ((s.heard f).replyPlaced_notePlaced p f.origin).congr rfl rfl ?_ rfl rfl rfl rfl
      rw [number]
      rfl
    · cases p <;> rfl

end Sys2Proof.Machine

/-! What a step leaves of the cue list and the protect line: all but a load, a clear and a PROTECT leave both, and none
of these three reaches a record at or below the line (R55, R62, R63). -/

namespace Sys2Proof.Machine

/-! ### A refusal and a GO leave the list and the line (R64, R75) -/

section

variable (s : State)

@[simp] theorem State.refuse_cueList (k : RefusalKind) (n o : Nat) :
    (s.refuse k n o).cues.cues = s.cues.cues ∧ (s.refuse k n o).cues.line = s.cues.line :=
  ⟨rfl, rfl⟩

@[simp] theorem State.go_cueList (n : Nat) (t k : Int) (o : Nat) (u : Bool) :
    (s.go n t k o u).cues.cues = s.cues.cues ∧ (s.go n t k o u).cues.line = s.cues.line := by
  simp only [State.go]
  split <;> simp

@[simp] theorem State.takeCueGo_cueList (f : TickFields) (o : Nat) :
    (s.takeCueGo f o).cues.cues = s.cues.cues ∧ (s.takeCueGo f o).cues.line = s.cues.line := by
  simp only [State.takeCueGo, State.syncedGo, State.unsyncedGo]
  (repeat' split) <;> simp

@[simp] theorem State.takePendingGo_cueList (g : PendingGo) :
    (s.takePendingGo g).cues.cues = s.cues.cues ∧ (s.takePendingGo g).cues.line = s.cues.line := by
  simp [State.takePendingGo]

@[simp] theorem State.takeFollow_cueList (g : FollowTimer) :
    (s.takeFollow g).cues.cues = s.cues.cues ∧ (s.takeFollow g).cues.line = s.cues.line := by
  simp only [State.takeFollow]
  split <;> simp

end

/-! ### What the line protects (R63) -/

/-- A later Cue Store keeps what an earlier one's line protects: its line is no lower, and it has the same records at or
below that line. -/
def CueStore.KeptIn (c d : CueStore) : Prop :=
  c.line ≤ d.line ∧ (d.cues.filter fun q => q.number ≤ c.line) = c.cues.filter fun q => q.number ≤ c.line

theorem CueStore.KeptIn.of_same {c d : CueStore} (same : d.cues = c.cues ∧ d.line = c.line) : c.KeptIn d := by
  obtain ⟨list, line⟩ := same
  exact ⟨Nat.le_of_eq line.symm, by rw [list]⟩

/-- A load that passes its tests is numbered above the line (R55). -/
theorem CueStore.above_line_of_loadTest {c : CueStore} {f : CueLoadFields} (h : c.loadTest f = none) :
    c.line < f.number := by
  unfold CueStore.loadTest at h
  split at h
  · cases h
  split at h
  · cases h
  split at h
  · cases h
  · next above => exact Nat.lt_of_not_le above

theorem State.storeLoad_cues (s : State) (f : CueLoadFields) :
    (s.storeLoad f).cues = { s.cues with cues := insertCue f.cue s.cues.cues } := by
  simp only [State.storeLoad]
  split <;> rfl

theorem State.takeLoad_keptIn (s : State) (f : CueLoadFields) (o : Nat) : s.cues.KeptIn (s.takeLoad f o).cues := by
  unfold State.takeLoad
  cases passes : s.cues.loadTest f with
  | some kind => exact .of_same (s.refuse_cueList kind f.number o)
  | none =>
    have above : s.cues.line < f.cue.number := CueStore.above_line_of_loadTest passes
    rw [State.storeLoad_cues]
    exact ⟨Nat.le_refl _, filter_insertCue_of_above f.cue s.cues.cues above⟩

/-- A clear takes no record at or below the line (R62). -/
theorem CueStore.filter_not_clears (c : CueStore) (low high : Nat) :
    ((c.cues.filter fun q => !c.clears low high q).filter fun q => q.number ≤ c.line) =
      c.cues.filter fun q => q.number ≤ c.line := by
  rw [List.filter_filter]
  refine List.filter_congr fun q _ => ?_
  by_cases below : q.number ≤ c.line
  · simp [CueStore.clears, below]
  · simp [below]

theorem State.takeClear_keptIn (s : State) (low high o : Nat) : s.cues.KeptIn (s.takeClear low high o).cues := by
  unfold State.takeClear
  split
  · exact .of_same (s.refuse_cueList _ _ o)
  · have cleared := s.cues.filter_not_clears low high
    cases s.cues.lowestKept low high with
    | none => exact ⟨Nat.le_refl _, cleared⟩
    | some q => exact ⟨Nat.le_refl _, cleared⟩

theorem State.takeProtect_keptIn (s : State) (line o : Nat) : s.cues.KeptIn (s.takeProtect line o).cues := by
  unfold State.takeProtect
  split
  · exact .of_same (s.refuse_cueList _ _ o)
  split
  · exact .of_same (s.refuse_cueList _ _ o)
  · next not_below => exact ⟨Nat.le_of_not_lt not_below, rfl⟩

/-! ### From a state to the next -/

/-- The next state is a reset, or keeps what the line protects. -/
def ProtectsInto (s t : State) : Prop :=
  IsReset t ∨ s.cues.KeptIn t.cues

variable {s t : State}

theorem ProtectsInto.of_list (same : t.cues.cues = s.cues.cues ∧ t.cues.line = s.cues.line) : ProtectsInto s t :=
  .inr (.of_same same)

theorem ProtectsInto.of_cues (same : t.cues = s.cues) : ProtectsInto s t :=
  .of_list (by simp [same])

theorem ProtectsInto.refl (s : State) : ProtectsInto s s :=
  .of_cues rfl

/-- What happens before a state without touching its Cue Store does not matter. -/
theorem ProtectsInto.after {u : State} (h : ProtectsInto u t) (same : u.cues = s.cues) : ProtectsInto s t := by
  unfold ProtectsInto at h ⊢
  rwa [same] at h

theorem protectsInto_deviceReset (s u : State) : ProtectsInto s u.deviceReset :=
  .inl rfl

/-! ### The consumers (R10) -/

/-- What a frame does is what its consumer does, or a counter. -/
theorem ProtectsInto.handOn (s : State) {k : FrameKind} {f : Frame} {g : State → State}
    (consumes : ∀ u, ProtectsInto u (g u)) : ProtectsInto s (s.handOn k f g) := by
  rcases handOn_cases (s := s) (k := k) (f := f) (g := g) with ignored | wrong | ⟨-, -, given⟩
  · rw [ignored]; exact .refl s
  · rw [wrong]; exact .of_cues (State.tallyPort_cues ..)
  · rw [given]; exact (consumes _).after (s.heard_cues f)

/-- The three frames of the Cue Store keep what is protected, a RESTART resets, and no other consumer reaches the
list. -/
theorem ProtectsInto.consume (s : State) (k : Option FrameKind) (f : Frame) : ProtectsInto s (s.consume k f) := by
  unfold State.consume
  cases k with
  | none => exact .refl s
  | some k =>
    cases k with
    | cueLoad => exact ProtectsInto.handOn s fun u => .inr (u.takeLoad_keptIn _ _)
    | cueClear => exact ProtectsInto.handOn s fun u => .inr (u.takeClear_keptIn _ _ _)
    | protect => exact ProtectsInto.handOn s fun u => .inr (u.takeProtect_keptIn _ _)
    | restart => exact ProtectsInto.handOn s fun u => protectsInto_deviceReset u u
    | cueGo => exact ProtectsInto.handOn s fun u => .of_list (by simp)
    | beacon => exact ProtectsInto.handOn s fun u => .of_cues (by simp)
    | moveNote => exact ProtectsInto.handOn s fun u => .of_cues (by simp)
    | matchNote => exact ProtectsInto.handOn s fun u => .of_cues (by simp)
    | feedNote => exact ProtectsInto.handOn s fun u => .of_cues (by simp)
    | statusReply => exact ProtectsInto.handOn s .refl
    | cueRelease => exact ProtectsInto.handOn s fun u => .of_cues (by simp)
    | homeAsk => exact ProtectsInto.handOn s fun u => .of_cues (by simp)
    | statusAsk => exact ProtectsInto.handOn s fun u => .of_cues (by simp)
    | setup => exact ProtectsInto.handOn s fun u => .of_cues (by simp)

/-- A close leaves the Cue Store as it is up to the frame's consumer (R2, R10). -/
theorem ProtectsInto.closeFrame (s : State) (p : Port) : ProtectsInto s (s.closeFrame p) := by
  simp only [State.closeFrame]
  split
  · split
    · exact .of_cues (by simp)
    · exact (ProtectsInto.consume _ _ _).after (by simp)
  · exact .of_cues (by simp)

/-! ### Every command -/

theorem ProtectsInto.frameCommand (s : State) (k : FrameKind) (f : Frame) :
    Ensures (exec (commandOf k f) s) (ProtectsInto s) := by
  rw [exec_commandOf]
  rintro t ⟨⟩
  exact .consume s (some k) f

/-- A timed event, where its test lets it act (log 3). -/
theorem ProtectsInto.whenDue {b : Prop} [Decidable b] (h : ProtectsInto s t) :
    Ensures (.next (if b then t else s)) (ProtectsInto s) := by
  rintro u ⟨⟩
  split
  · exact h
  · exact .refl s

theorem ProtectsInto.unchanged (s : State) : Ensures (.next s) (ProtectsInto s) := by
  rintro t ⟨⟩
  exact .refl s

/-- A boundary that a consumer has yet to take: its effect, or none. -/
theorem ProtectsInto.boundary (bs : List Int) {g : Int → State} (same : ∀ b, (g b).cues = s.cues) :
    Ensures (match bs with
      | b :: _ => .next (g b)
      | [] => .next s) (ProtectsInto s) := by
  cases bs with
  | nil => exact .unchanged s
  | cons b rest => rintro t ⟨⟩; exact .of_cues (same b)

theorem exec_protectsInto (c : Instr) (s : State) : Ensures (exec c s) (ProtectsInto s) := by
  cases c with
  | characterReceived p c b => exact .whenDue (.of_cues (by simp))
  | frameClose p => exact .whenDue (.closeFrame s p)
  | portSilenceTimeout p => exact .whenDue (.of_cues (by simp))
  | choicePoint p => exact .whenDue (.of_cues (by simp))
  | relayedFrameSent p => exact .whenDue (.of_cues (by simp))
  | ownFrameSent p => exact .whenDue (.of_cues (by simp))
  | beacon f => exact .frameCommand s .beacon f
  | feedNote f => exact .frameCommand s .feedNote f
  | matchNote f => exact .frameCommand s .matchNote f
  | statusReply f => exact .frameCommand s .statusReply f
  | cueLoad f => exact .frameCommand s .cueLoad f
  | cueClear f => exact .frameCommand s .cueClear f
  | protect f => exact .frameCommand s .protect f
  | cueGo f => exact .frameCommand s .cueGo f
  | cueRelease f => exact .frameCommand s .cueRelease f
  | moveNote f => exact .frameCommand s .moveNote f
  | homeAsk f => exact .frameCommand s .homeAsk f
  | setup f => exact .frameCommand s .setup f
  | statusAsk f => exact .frameCommand s .statusAsk f
  | restart f => exact .frameCommand s .restart f
  | catchUpSlew => exact .whenDue (.of_cues (by simp))
  | holdoverEntry => exact .whenDue (.of_cues (by simp))
  | holdoverToFree => exact .whenDue (.of_cues (by simp))
  | seekToFree => exact .whenDue (.of_cues (by simp))
  | beaconTimer => exact .whenDue (.of_cues (by simp))
  | peerAgeOut n =>
    simp only [exec, execPeerAgeOut]
    split
    · exact .whenDue (.of_cues (by simp))
    · exact .unchanged s
  | feedPartLapse n =>
    simp only [exec, execFeedPartLapse]
    split
    · exact .whenDue (.of_cues (by simp))
    · exact .unchanged s
  | matchPartLapse n =>
    simp only [exec, execMatchPartLapse]
    split
    · exact .whenDue (.of_cues (by simp))
    · exact .unchanged s
  | pendingGoTick =>
    simp only [exec, execPendingGoTick]
    split
    · exact .whenDue (.of_list (by simp))
    · exact .unchanged s
  | followTick =>
    simp only [exec, execFollowTick]
    split
    · exact .whenDue (.of_list (by simp))
    · exact .unchanged s
  | laneTick g => rintro t ⟨⟩; exact .of_cues (by simp)
  | gatherClose =>
    simp only [exec, execGatherClose]
    split
    · exact .whenDue (.of_cues (by simp))
    · exact .unchanged s
  | earlyNoteLapse n =>
    simp only [exec, execEarlyNoteLapse]
    split
    · exact .whenDue (.of_cues (by simp))
    · exact .unchanged s
  | darkStart => exact .boundary _ fun b => by simp
  | colourBoundary => exact .boundary _ fun b => by simp
  | nextMatchTime => exact .whenDue (.of_cues (by simp))
  | emitterPwmPeriod => exact .whenDue (.of_cues (by simp))
  | axisBoundary x => exact .boundary _ fun b => by simp
  | bridgePwmPeriod => exact .whenDue (.of_cues (by simp))
  | overcurrentEvent x c => rintro t ⟨⟩; exact .of_cues (by simp)
  | senseScan e d f => exact .whenDue (.of_cues (by simp))
  | indexEdge x e => rintro t ⟨⟩; exact .of_cues (by simp)
  | feedBoundary =>
    rintro t ⟨⟩
    split
    · exact .refl s
    · exact .of_cues (by simp)
  | settleEnd => exact .whenDue (.of_cues (by simp))
  | tripEnd => exact .whenDue (.of_cues (by simp))
  | nextNoteTime => exact .whenDue (.of_cues (by simp))
  | bridgeEnable => exact .whenDue (.of_cues (by simp))
  | resetLine => rintro t ⟨⟩; exact protectsInto_deviceReset _ _
  | powerOn => rintro t ⟨⟩; exact protectsInto_deviceReset _ _
  | setupReadComplete => exact .whenDue (.of_cues (by simp))
  | resetLineHeld => rintro t ⟨⟩; exact protectsInto_deviceReset _ _

/-- Settles O28: every command keeps what the line protects, and so do the passing of time and the queue, which reach no
part of the Cue Store. -/
theorem protectedCuesKept : Obligations.ProtectedCuesKept := by
  intro s t ht
  rcases step_cases s with ⟨c, rest, -, h⟩ | ⟨-, -, h⟩ | ⟨-, -, c, -, h⟩ | ⟨-, -, -, h⟩
  · rw [h] at ht
    exact (exec_protectsInto c _ t ht).after rfl
  · rw [h] at ht
    exact ProtectsInto.unchanged s t ht
  · rw [h] at ht
    exact exec_protectsInto c s t ht
  · rw [h] at ht
    cases ht
    exact ProtectsInto.of_cues (by simp)

end Sys2Proof.Machine

/-! What the Cue Store makes of a CUE-LOAD: its four tests, the record it stores, and what it counts (R55 to R58,
R66). -/

namespace Sys2Proof.Machine

variable {s : State} {f : Frame}

theorem exec_cueLoad (taken : Taken s .cueLoad f) :
    exec (.cueLoad f) s = .next ((s.heard f).takeLoad (readCueLoad f.payload) f.origin.toNat) :=
  congrArg Host.Outcome.next (handOn_of_taken taken)

theorem CueStore.holds_iff {c : CueStore} {n : Nat} : c.holds n = true ↔ ∃ q ∈ c.cues, q.number = n := by
  simp [CueStore.holds]

/-! ### The fields of a load (R23) -/

section

variable (p : List Byte)

@[simp] theorem readCueLoad_hasPos : (readCueLoad p).hasPos = (fieldAt p 2 1).testBit 0 :=
  bitOf_ofNat _ (by decide)

@[simp] theorem readCueLoad_hasCol : (readCueLoad p).hasCol = (fieldAt p 2 1).testBit 1 :=
  bitOf_ofNat _ (by decide)

@[simp] theorem readCueLoad_hasInt : (readCueLoad p).hasInt = (fieldAt p 2 1).testBit 2 :=
  bitOf_ofNat _ (by decide)

@[simp] theorem readCueLoad_hasDelay : (readCueLoad p).hasDelay = (fieldAt p 2 1).testBit 3 :=
  bitOf_ofNat _ (by decide)

@[simp] theorem readCueLoad_hasFollow : (readCueLoad p).hasFollow = (fieldAt p 2 1).testBit 4 :=
  bitOf_ofNat _ (by decide)

@[simp] theorem readCueLoad_hasDark : (readCueLoad p).hasDark = (fieldAt p 2 1).testBit 5 :=
  bitOf_ofNat _ (by decide)

end

/-! ### The tests (R55) -/

section

variable {c : CueStore} {l : CueLoadFields}

/-- A load has one of the three parts (R55). -/
def CueLoadFields.HasPart (l : CueLoadFields) : Prop :=
  l.hasPos = true ∨ l.hasCol = true ∨ l.hasInt = true

theorem CueLoadFields.hasPart_iff : (!l.hasPos && !l.hasCol && !l.hasInt) = false ↔ l.HasPart := by
  unfold CueLoadFields.HasPart
  cases l.hasPos <;> simp
  cases l.hasCol <;> simp

theorem readCueLoad_hasPart_iff {p : List Byte} :
    (readCueLoad p).HasPart ↔
      (fieldAt p 2 1).testBit 0 = true ∨ (fieldAt p 2 1).testBit 1 = true ∨ (fieldAt p 2 1).testBit 2 = true := by
  rw [CueLoadFields.HasPart, readCueLoad_hasPos, readCueLoad_hasCol, readCueLoad_hasInt]

theorem CueStore.loadTest_badNumber (number : l.number < 1 ∨ 9999 < l.number) : c.loadTest l = some .badNumber :=
  if_pos number

theorem CueStore.loadTest_of_number (low : 1 ≤ l.number) (high : l.number ≤ 9999) :
    c.loadTest l =
      if !l.hasPos && !l.hasCol && !l.hasInt then some .empty
      else if l.number ≤ c.line then some .isProtected
      else if !c.holds l.number && decide (128 ≤ c.cues.length) then some .full
      else none :=
  if_neg (by omega)

theorem CueStore.loadTest_empty (low : 1 ≤ l.number) (high : l.number ≤ 9999) (pos : l.hasPos = false)
    (col : l.hasCol = false) (int : l.hasInt = false) : c.loadTest l = some .empty := by
  rw [loadTest_of_number low high, if_pos (by simp [pos, col, int])]

theorem CueStore.loadTest_of_parts (low : 1 ≤ l.number) (high : l.number ≤ 9999) (parts : l.HasPart) :
    c.loadTest l =
      if l.number ≤ c.line then some .isProtected
      else if !c.holds l.number && decide (128 ≤ c.cues.length) then some .full
      else none := by
  rw [loadTest_of_number low high, if_neg (by simp [CueLoadFields.hasPart_iff.mpr parts])]

theorem CueStore.loadTest_protected (low : 1 ≤ l.number) (high : l.number ≤ 9999) (parts : l.HasPart)
    (below : l.number ≤ c.line) : c.loadTest l = some .isProtected := by
  rw [loadTest_of_parts low high parts, if_pos below]

theorem CueStore.loadTest_full (low : 1 ≤ l.number) (high : l.number ≤ 9999) (parts : l.HasPart)
    (above : c.line < l.number) (new : ∀ q ∈ c.cues, q.number ≠ l.number) (full : 128 ≤ c.cues.length) :
    c.loadTest l = some .full := by
  have notHeld : c.holds l.number = false := by simpa [CueStore.holds] using new
  rw [loadTest_of_parts low high parts, if_neg (by omega), if_pos (by simp [notHeld, full])]

theorem CueStore.loadTest_passes (low : 1 ≤ l.number) (high : l.number ≤ 9999) (parts : l.HasPart)
    (above : c.line < l.number) (room : (∃ q ∈ c.cues, q.number = l.number) ∨ c.cues.length < 128) :
    c.loadTest l = none := by
  rw [loadTest_of_parts low high parts, if_neg (by omega), if_neg]
  rcases room with held | room
  · simp [CueStore.holds_iff.mpr held]
  · simp [room]

end

/-- Settles O24: each refusal is the first of the four tests that fails. -/
theorem cueLoadRefused : Obligations.CueLoadRefused := by
  intro s f taken n has refused
  have parts : has 0 ∨ has 1 ∨ has 2 → (readCueLoad f.payload).HasPart := readCueLoad_hasPart_iff.mpr
  have refuses {kind : RefusalKind} (h : s.cues.loadTest (readCueLoad f.payload) = some kind) : refused kind := by
    change exec (.cueLoad f) s = _
    rw [exec_cueLoad taken, State.takeLoad, State.heard_cues, h]
    rfl
  refine ⟨fun number => ?_, fun low high pos col int => ?_, fun low high part below => ?_,
    fun low high part above new full => ?_⟩
  · exact refuses (CueStore.loadTest_badNumber number)
  · exact refuses (CueStore.loadTest_empty low high ((readCueLoad_hasPos _).trans pos)
      ((readCueLoad_hasCol _).trans col) ((readCueLoad_hasInt _).trans int))
  · exact refuses (CueStore.loadTest_protected low high (parts part) below)
  · exact refuses (CueStore.loadTest_full low high (parts part) above new full)

/-! ### What is stored (R56 to R58) -/

theorem CueStore.cueNumbered_insertCue_self (c : CueStore) (q : Cue) :
    ({ c with cues := insertCue q c.cues } : CueStore).cueNumbered q.number = some q :=
  find_insertCue_self q c.cues

theorem CueStore.cueNumbered_insertCue_of_ne (c : CueStore) (q : Cue) {m : Nat} (h : m ≠ q.number) :
    ({ c with cues := insertCue q c.cues } : CueStore).cueNumbered m = c.cueNumbered m :=
  find_insertCue_of_ne q c.cues h

/-- All that a stored load counts: a replace or an insert, and a clamping (R57, R58, R66). -/
theorem State.storeLoad_counts (s : State) (l : CueLoadFields) :
    (s.storeLoad l).stats.cues =
      { s.stats.cues with
        replaced := if s.cues.holds l.number then s.counter s.stats.cues.replaced else s.stats.cues.replaced,
        inserted := if s.cues.holds l.number then s.stats.cues.inserted else s.counter s.stats.cues.inserted,
        clamped := if l.isClamped then s.counter s.stats.cues.clamped else s.stats.cues.clamped } := by
  cases counting : s.setup.counting with
  | false => simp only [State.storeLoad]; split <;> simp [State.counter, counting]
  | true =>
    simp only [State.storeLoad]
    split <;> cases s.cues.holds l.number <;> simp [State.counter, sat, *]

/-- A load's storing reaches the cue list and the counters, and no more. -/
theorem State.storeLoad_eq (s : State) (l : CueLoadFields) :
    s.storeLoad l = { s with cues := (s.storeLoad l).cues, stats := (s.storeLoad l).stats } := by
  simp only [State.storeLoad]
  split <;> rfl

theorem CueLoadFields.isClamped_iff {l : CueLoadFields} :
    l.isClamped = true ↔
      (l.hasPos ∧ (54000 < l.pan ∨ 27000 < l.tilt ∨ 60000 < l.moveMs ∨ 15 < l.moveGroup)) ∨
        (l.hasCol ∧ (1000 < l.levels.red ∨ 1000 < l.levels.green ∨ 1000 < l.levels.blue ∨ 1000 < l.levels.white ∨
          60000 < l.colourMs)) ∨
        (l.hasInt ∧ (1000 < l.intensity ∨ 60000 < l.intensityMs)) ∨ (l.hasDelay ∧ 60000 < l.delay) ∨
        (l.hasFollow ∧ 600000 < l.follow) := by
  simp only [CueLoadFields.isClamped, Bool.or_eq_true, Bool.and_eq_true, decide_eq_true_eq, or_assoc]

/-- Settles O25: the record of the fields read is inserted under its number, and each count goes by its test. -/
theorem cueLoadStored : Obligations.CueLoadStored := by
  intro s f taken at2 n group follow has held q clamped low high part above room
  have parts : (readCueLoad f.payload).HasPart := readCueLoad_hasPart_iff.mpr part
  have passes : (s.heard f).cues.loadTest (readCueLoad f.payload) = none :=
    CueStore.loadTest_passes low high parts above room
  have record : (readCueLoad f.payload).cue = q := by
    simp only [CueLoadFields.cue, CueLoadFields.posPart, CueLoadFields.colPart, CueLoadFields.intPart,
      readCueLoad_hasPos, readCueLoad_hasCol, readCueLoad_hasInt, readCueLoad_hasDelay, readCueLoad_hasFollow,
      readCueLoad_hasDark]
    rfl
  have heldHere : (s.heard f).cues.holds (readCueLoad f.payload).number = true ↔ held := CueStore.holds_iff
  have clampedHere : (readCueLoad f.payload).isClamped = true ↔ clamped := by
    rw [CueLoadFields.isClamped_iff]
    simp only [readCueLoad_hasPos, readCueLoad_hasCol, readCueLoad_hasInt, readCueLoad_hasDelay, readCueLoad_hasFollow]
    rfl
  have cues := (s.heard f).storeLoad_cues (readCueLoad f.payload)
  have counts := (s.heard f).storeLoad_counts (readCueLoad f.payload)
  have frame := (s.heard f).storeLoad_eq (readCueLoad f.payload)
  rw [record] at cues
  simp only [heldHere, clampedHere, State.heard_stats_cues] at counts
  rw [exec_cueLoad taken, State.takeLoad, passes]
  refine ⟨(s.heard f).storeLoad (readCueLoad f.payload), rfl, ?_, fun m other => ?_, ?_, fun isHeld => ?_,
    fun isNew => ?_, fun isClamped => ?_, fun isWithin => ?_, frame⟩
  · rw [cues]
    exact CueStore.cueNumbered_insertCue_self s.cues q
  · rw [cues]
    exact CueStore.cueNumbered_insertCue_of_ne s.cues q other
  · rw [cues]
    rfl
  · rw [counts]
    exact ⟨if_pos isHeld, if_pos isHeld⟩
  · rw [counts]
    exact ⟨if_neg isNew, if_neg isNew⟩
  · rw [counts]
    exact if_pos isClamped
  · rw [counts]
    exact if_neg isWithin

end Sys2Proof.Machine

/-! What the Cue Store makes of a CUE-CLEAR and a PROTECT, and the lowest record of its list with a property (R60 to
R63). -/

namespace Sys2Proof.Machine

variable {s : State} {f : Frame}

/-! ### Records of an ascending list (R53) -/

/-- In an ascending list the first record with a property is the lowest one that has it (R53). -/
theorem find_lowest_cue {cs : List Cue} {p : Cue → Bool} {q : Cue}
    (sorted : (cs.map fun r => r.number).Pairwise (· < ·)) (mem : q ∈ cs) (holds : p q = true)
    (lowest : ∀ r ∈ cs, p r = true → q.number ≤ r.number) : cs.find? p = some q := by
  induction cs with
  | nil => cases mem
  | cons r rest ih =>
    obtain ⟨first, sorted⟩ := List.pairwise_cons.mp sorted
    rcases List.mem_cons.mp mem with rfl | later
    · exact List.find?_cons_of_pos holds
    · have lower : r.number < q.number := first _ (List.mem_map_of_mem later)
      have fails : ¬ p r = true := fun h => Nat.not_le_of_lt lower (lowest r List.mem_cons_self h)
      rw [List.find?_cons_of_neg fails]
      exact ih sorted later fun x hx => lowest x (List.mem_cons_of_mem r hx)

/-! ### CUE-CLEAR (R61, R62) -/

theorem exec_cueClear (taken : Taken s .cueClear f) :
    exec (.cueClear f) s =
      .next ((s.heard f).takeClear (fieldAt f.payload 0 2) (fieldAt f.payload 2 2) f.origin.toNat) :=
  congrArg Host.Outcome.next (handOn_of_taken taken)

/-- The state after a clear's records are gone, before what it kept is reported. -/
def State.cleared (s : State) (low high : Nat) : State :=
  (s.withCues { s.cues with cues := s.cues.cues.filter fun q => !s.cues.clears low high q }).tallyCues
    fun k => { k with removed := satBy (s.cues.cues.countP (s.cues.clears low high)) k.removed }

theorem State.takeClear_of_reversed {low high : Nat} (h : high < low) (s : State) (o : Nat) :
    s.takeClear low high o = s.refused .badNumber low o :=
  if_pos h

theorem State.takeClear_eq {low high : Nat} (h : low ≤ high) (s : State) (o : Nat) :
    s.takeClear low high o =
      match s.cues.lowestKept low high with
      | some q => (s.cleared low high).refused .isProtected q.number o
      | none => s.cleared low high := by
  rw [State.takeClear, if_neg (Nat.not_lt_of_le h), State.cleared, List.countP_eq_length_filter]
  rfl

theorem CueStore.clears_eq (c : CueStore) (low high : Nat) :
    c.clears low high = fun q => decide (low ≤ q.number ∧ q.number ≤ high ∧ c.line < q.number) := by
  funext q
  rw [Bool.eq_iff_iff]
  simp [CueStore.clears, Cue.inRange, and_assoc]

theorem CueStore.lowestKept_eq_none {c : CueStore} {low high : Nat}
    (nothing : ∀ q ∈ c.cues, ¬ (low ≤ q.number ∧ q.number ≤ high ∧ q.number ≤ c.line)) :
    c.lowestKept low high = none := by
  refine List.find?_eq_none.mpr fun q mem => ?_
  simpa [Cue.inRange, and_assoc] using nothing q mem

theorem CueStore.lowestKept_eq_some {c : CueStore} {low high : Nat} {q : Cue}
    (sorted : (c.cues.map fun r => r.number).Pairwise (· < ·)) (mem : q ∈ c.cues)
    (stays : low ≤ q.number ∧ q.number ≤ high ∧ q.number ≤ c.line)
    (lowest : ∀ r ∈ c.cues, low ≤ r.number ∧ r.number ≤ high ∧ r.number ≤ c.line → q.number ≤ r.number) :
    c.lowestKept low high = some q := by
  refine find_lowest_cue sorted mem ?_ fun r hr h => lowest r hr ?_
  · simpa [Cue.inRange, and_assoc] using stays
  · simpa [Cue.inRange, and_assoc] using h

/-! ### PROTECT (R63) -/

theorem exec_protect (taken : Taken s .protect f) :
    exec (.protect f) s = .next ((s.heard f).takeProtect (fieldAt f.payload 0 2) f.origin.toNat) :=
  congrArg Host.Outcome.next (handOn_of_taken taken)

/-- Settles O26: a clear by what it keeps, and a PROTECT by its tests in order. -/
theorem clearAndProtect : Obligations.ClearAndProtect := by
  constructor
  · intro s f taken low high
    refine ⟨fun reversed => ?_, fun ordered => ?_⟩
    · rw [exec_cueClear taken, State.takeClear_of_reversed reversed]
    · intro goes stays cleared
      have same : (s.heard f).cleared low high = cleared := by
        simp only [State.cleared, CueStore.clears_eq, ← decide_not]
        rfl
      rw [exec_cueClear taken, State.takeClear_eq ordered, same]
      refine ⟨fun nothing => ?_, fun q mem stay hold lowest => ?_⟩
      · have kept : (s.heard f).cues.lowestKept low high = none := CueStore.lowestKept_eq_none nothing
        rw [kept]
      · obtain ⟨-, sorted, -⟩ := hold
        have kept : (s.heard f).cues.lowestKept low high = some q :=
          CueStore.lowestKept_eq_some sorted mem stay lowest
        rw [kept]
  · intro s f taken line
    rw [exec_protect taken, State.takeProtect]
    refine ⟨fun high => ?_, fun low below => ?_, fun low above => ?_⟩
    · rw [if_pos high]
      rfl
    · rw [if_neg (Nat.not_lt_of_le low), State.heard_cues, if_pos below]
      rfl
    · rw [if_neg (Nat.not_lt_of_le low), State.heard_cues, if_neg (Nat.not_lt_of_le above)]
      rfl

end Sys2Proof.Machine

/-! What a taken GO leaves: its level lanes and records, and all that it does not reach, by each of the three ways a GO
is taken (R60, R71 to R77, R81, R92). -/

namespace Sys2Proof.Machine

/-! ### Moves leave the level lanes, the pending GO and the last release (R78, R79, R101, R105, R107) -/

section

variable (s : State)

@[simp] theorem State.place_moveNote_feed (d : Byte) (b : List Byte) : (s.place .moveNote d b).feed = s.feed := by
  rw [s.place_frame' .moveNote d b (by decide)]
  rfl

@[simp] theorem State.countStretched_playCounts (p : Plan) : (s.countStretched p).stats.play = s.stats.play := by
  simp only [State.countStretched]
  split <;> simp

@[simp] theorem State.setPlain_levels (a b : PerAxis Int) (m : Nat) (t n : Int) :
    (s.setPlain a b m t n).play.intensity = s.play.intensity ∧ (s.setPlain a b m t n).play.colour = s.play.colour ∧
      (s.setPlain a b m t n).play.pendingGo = s.play.pendingGo ∧
      (s.setPlain a b m t n).play.lastRelease = s.play.lastRelease ∧
      (s.setPlain a b m t n).stats.play = s.stats.play := by
  simp [State.setPlain, State.withPos]

@[simp] theorem State.closeGather_levels (g : Gather) :
    (s.closeGather g).play.intensity = s.play.intensity ∧ (s.closeGather g).play.colour = s.play.colour ∧
      (s.closeGather g).play.pendingGo = s.play.pendingGo ∧
      (s.closeGather g).play.lastRelease = s.play.lastRelease ∧ (s.closeGather g).stats.play = s.stats.play := by
  simp [State.closeGather, State.finishGather, State.withPos]

@[simp] theorem State.cancelGather_levels :
    s.cancelGather.play.intensity = s.play.intensity ∧ s.cancelGather.play.colour = s.play.colour ∧
      s.cancelGather.play.pendingGo = s.play.pendingGo ∧ s.cancelGather.play.lastRelease = s.play.lastRelease ∧
      s.cancelGather.stats.play = s.stats.play := by
  simp only [State.cancelGather]
  split <;> simp [State.finishGather]

@[simp] theorem State.openGather_levels (a b : PerAxis Int) (m g n : Nat) (t d : Int) :
    (s.openGather a b m g n t d).play.intensity = s.play.intensity ∧
      (s.openGather a b m g n t d).play.colour = s.play.colour ∧
      (s.openGather a b m g n t d).play.pendingGo = s.play.pendingGo ∧
      (s.openGather a b m g n t d).play.lastRelease = s.play.lastRelease ∧
      (s.openGather a b m g n t d).stats.play = s.stats.play ∧ (s.openGather a b m g n t d).feed = s.feed := by
  simp only [State.openGather]
  (repeat' split) <;> simp

@[simp] theorem State.endGatherForTake_levels (q : Cue) :
    (s.endGatherForTake q).play.intensity = s.play.intensity ∧
      (s.endGatherForTake q).play.colour = s.play.colour ∧
      (s.endGatherForTake q).play.pendingGo = s.play.pendingGo ∧
      (s.endGatherForTake q).play.lastRelease = s.play.lastRelease ∧
      (s.endGatherForTake q).stats.play = s.stats.play := by
  simp only [State.endGatherForTake]
  (repeat' split) <;> simp

@[simp] theorem State.setPosition_levels (q : Cue) (p : PosPart) (t : Int) (u : Bool) :
    (s.setPosition q p t u).play.intensity = s.play.intensity ∧
      (s.setPosition q p t u).play.colour = s.play.colour ∧
      (s.setPosition q p t u).play.pendingGo = s.play.pendingGo ∧
      (s.setPosition q p t u).play.lastRelease = s.play.lastRelease ∧
      (s.setPosition q p t u).stats.play = s.stats.play ∧ (s.setPosition q p t u).feed = s.feed := by
  simp only [State.setPosition]
  (repeat' split) <;> simp [State.withPos]

end

/-! ### Level lanes (R77) -/

theorem levelTiming_timingSet (startTick endTick now : Int) :
    TimingSet startTick endTick now (levelTiming startTick endTick now) := by
  unfold levelTiming
  split
  · next ended => exact ⟨rfl, fun _ => ⟨rfl, rfl⟩, fun h => absurd ended (Int.not_le.mpr h),
      fun h => absurd ended (Int.not_le.mpr h)⟩
  · next ahead =>
    split
    · next waits => exact ⟨rfl, fun h => absurd h ahead, fun _ _ => ⟨rfl, rfl⟩,
        fun _ h => absurd h (Int.not_le.mpr waits)⟩
    · next started => exact ⟨rfl, fun h => absurd h ahead, fun _ h => absurd h started,
        fun _ _ => ⟨rfl, rfl⟩⟩

/-- The INTENSITY lane a cue leaves in a take (R77). -/
def Cue.intensityFrom (q : Cue) (l : LevelLane) (goTick now : Int) : LevelLane :=
  match q.int with
  | some i => l.retarget i.level (goTick + (q.delay : Nat)) (goTick + (q.delay : Nat) + (i.ms : Nat)) now
  | none => l

/-- The colour lanes a cue leaves in a take (R77). -/
def Cue.colourFrom (q : Cue) (l : ColourLanes) (goTick now : Int) : ColourLanes :=
  match q.col with
  | some c => l.retarget c.levels (goTick + (q.delay : Nat)) (goTick + (q.delay : Nat) + (c.ms : Nat)) now
  | none => l

theorem State.setLevels_play (s : State) (q : Cue) (goTick : Int) :
    (s.setLevels q goTick).play =
      { s.play with
        intensity := q.intensityFrom s.play.intensity goTick s.showTick,
        colour := q.colourFrom s.play.colour goTick s.showTick } :=
  rfl

/-! ### Taking a GO (R76) -/

/-- The Playback Unit's records and level lanes after a GO is taken. -/
theorem State.takeGo_play (s : State) (q : Cue) (n : Nat) (goTick carried : Int) (u : Bool) :
    (s.takeGo q n goTick carried u).play.lastRelease = none ∧
      (s.takeGo q n goTick carried u).play.lastGo = some { cueField := n, resolved := q.number, tick := carried } ∧
      (s.takeGo q n goTick carried u).play.follow =
        (q.follow.map fun ms => { tick := goTick + (ms : Nat), source := q.number }) ∧
      (s.takeGo q n goTick carried u).play.intensity = q.intensityFrom s.play.intensity goTick s.showTick ∧
      (s.takeGo q n goTick carried u).play.colour = q.colourFrom s.play.colour goTick s.showTick ∧
      (s.takeGo q n goTick carried u).play.pendingGo = s.play.pendingGo := by
  simp only [State.takeGo]
  cases q.pos <;> simp [State.setLevels_play, State.showTick]

theorem State.takeGo_levelsTaken (s : State) (q : Cue) (n : Nat) (goTick carried : Int) (u : Bool) :
    LevelsTaken s (s.takeGo q n goTick carried u) q n goTick carried := by
  obtain ⟨release, go, follow, intensity, colour, -⟩ := s.takeGo_play q n goTick carried u
  refine ⟨release, go, follow, fun int => ?_, fun i int => ?_, fun col => ?_, fun c col => ?_⟩
  · rw [intensity, Cue.intensityFrom, int]
  · rw [intensity, Cue.intensityFrom, int]
    exact ⟨rfl, levelTiming_timingSet _ _ _, rfl⟩
  · rw [colour, Cue.colourFrom, col]
  · rw [colour, Cue.colourFrom, col]
    exact ⟨rfl, levelTiming_timingSet _ _ _, fun e => PerEmitter.get_of _ e⟩

/-- A take counts one GO taken, and nothing else of the Playback Unit's own (R92). -/
theorem State.takeGo_playCounts (s : State) (q : Cue) (n : Nat) (goTick carried : Int) (u : Bool) :
    (s.takeGo q n goTick carried u).stats.play =
      { s.stats.play with gosTaken := s.counter s.stats.play.gosTaken } := by
  simp only [State.takeGo]
  cases q.pos <;> cases counting : s.setup.counting <;> simp [State.counter, sat, counting]

/-- A take reaches playback, the outbox, the ports, the longest wait and the counters, and no more (R76, R102). -/
theorem State.takeGo_eq (s : State) (q : Cue) (n : Nat) (goTick carried : Int) (u : Bool) :
    s.takeGo q n goTick carried u =
      { s with
        play := (s.takeGo q n goTick carried u).play, stats := (s.takeGo q n goTick carried u).stats,
        outbox := (s.takeGo q n goTick carried u).outbox, ports := (s.takeGo q n goTick carried u).ports,
        longestWait := (s.takeGo q n goTick carried u).longestWait } := by
  have feed : (s.takeGo q n goTick carried u).feed = s.feed := by
    simp only [State.takeGo]
    cases q.pos <;> simp
  ext1 <;> simp [feed]

/-- What the lanes and records of a take are set from: the show time and the level lanes. -/
theorem LevelsTaken.congr {s u t : State} {q : Cue} {n : Nat} {goTick carried : Int}
    (h : LevelsTaken u t q n goTick carried) (clock : u.clock = s.clock)
    (intensity : u.play.intensity = s.play.intensity) (colour : u.play.colour = s.play.colour) :
    LevelsTaken s t q n goTick carried := by
  unfold LevelsTaken at *
  rwa [clock, intensity, colour] at h

/-! ### The cue a GO asks for (R60, R75) -/

section

variable {s : State} {q : Cue}

theorem CuesHold.sorted (hold : CuesHold s) : (s.cues.cues.map fun r => r.number).Pairwise (· < ·) := by
  obtain ⟨-, sorted, -⟩ := hold
  exact sorted

theorem CuesHold.cueAfter_eq (hold : CuesHold s) {n : Nat} (next : NextCue s n q) : s.cues.cueAfter n = some q := by
  obtain ⟨mem, above, lowest⟩ := next
  exact find_lowest_cue hold.sorted mem (decide_eq_true above) fun r hr h => lowest r hr (of_decide_eq_true h)

theorem CuesHold.cueNumbered_eq (hold : CuesHold s) (mem : q ∈ s.cues.cues) : s.cues.cueNumbered q.number = some q :=
  find_lowest_cue hold.sorted mem (beq_self_eq_true _) fun _ _ h => Nat.le_of_eq (eq_of_beq h).symm

theorem CuesHold.firstCue_eq (hold : CuesHold s) (mem : q ∈ s.cues.cues)
    (lowest : ∀ r ∈ s.cues.cues, q.number ≤ r.number) : s.cues.firstCue = some q := by
  have found := find_lowest_cue (p := fun _ => true) hold.sorted mem rfl fun r hr _ => lowest r hr
  rw [CueStore.firstCue, ← found]
  cases s.cues.cues <;> rfl

theorem CuesHold.resolve_eq (hold : CuesHold s) {n : Nat} (resolves : ResolvesTo s n q) : s.resolve n = some q := by
  obtain ⟨numbered, after, first⟩ := resolves
  unfold State.resolve
  split
  · next zero =>
    cases last : s.play.lastGo with
    | some g => exact hold.cueAfter_eq (after zero g last)
    | none =>
      obtain ⟨mem, lowest⟩ := first zero last
      exact hold.firstCue_eq mem lowest
  · next other =>
    obtain ⟨mem, rfl⟩ := numbered other
    exact hold.cueNumbered_eq mem

theorem State.go_of_resolve {n : Nat} (h : s.resolve n = some q) (goTick carried : Int) (o : Nat) (u : Bool) :
    s.go n goTick carried o u = s.takeGo q n goTick carried u := by
  rw [State.go, h]

end

/-! ### The CUE-GO as it is taken (R71 to R73) -/

theorem ticksAgree_iff {x y : Int} : ticksAgree x y = true ↔ Within20 x y := by
  simp only [ticksAgree, Within20, decide_eq_true_eq]
  omega

theorem Playback.isDuplicateGo_iff {s : State} {n : Nat} {tick : Int} :
    s.play.isDuplicateGo n tick = true ↔ DuplicateGo s n tick := by
  simp [Playback.isDuplicateGo, DuplicateGo, ticksAgree_iff, Option.any_eq_true]

theorem Clock.synced_iff {c : Clock} : c.synced = true ↔ c.mode = .locked ∨ c.mode = .holdover := by
  simp [Clock.synced]

theorem exec_cueGo {s : State} {f : Frame} (taken : Taken s .cueGo f)
    (new : ¬ DuplicateGo s (fieldAt f.payload 0 2) (fieldAt f.payload 2 4 : Nat)) :
    exec (.cueGo f) s =
      .next (if s.clock.synced then
        (s.heard f).syncedGo (fieldAt f.payload 0 2) (fieldAt f.payload 2 4 : Nat) f.origin.toNat
      else (s.heard f).unsyncedGo (fieldAt f.payload 0 2) (fieldAt f.payload 2 4 : Nat) f.origin.toNat) := by
  have handed : exec (.cueGo f) s = .next ((s.heard f).takeCueGo (readTickFields f.payload) f.origin.toNat) :=
    congrArg Host.Outcome.next (handOn_of_taken taken)
  have notDuplicate : ¬ (s.heard f).play.isDuplicateGo (fieldAt f.payload 0 2) (fieldAt f.payload 2 4 : Nat) = true :=
    fun h => new (Playback.isDuplicateGo_iff.mp h)
  rw [handed, State.takeCueGo]
  exact congrArg Host.Outcome.next (if_neg notDuplicate)

section

variable (s : State)

/-- The state in which a GO that comes as a frame is taken: the pending GO dropped, its arrival counted (R72, R73). -/
def State.arrived (count : PlayStats → PlayStats) : State :=
  s.dropPending.tallyPlay count

/-- A GO on a synced clock is late when its tick lies behind show time (R72). -/
def countLate (isLate : Bool) (k : PlayStats) : PlayStats :=
  { k with lateGos := if isLate then sat k.lateGos else k.lateGos }

/-- A GO on a clock that is not synced (R73). -/
def countUnsynced (k : PlayStats) : PlayStats :=
  { k with unsynced := sat k.unsynced }

theorem State.syncedGo_eq {n : Nat} {tick : Int} (o : Nat) (reached : tick ≤ s.showTick) :
    s.syncedGo n tick o = (s.arrived (countLate (tick < s.showTick))).go n tick tick o false := by
  rw [State.syncedGo, if_neg (Int.not_lt.mpr reached)]
  split
  · next late =>
    rw [decide_eq_true late]
    rfl
  · next inTime =>
    have uncounted : s.arrived (countLate false) = s.dropPending := by
      simp only [State.arrived, State.tallyPlay, State.tally]
      split <;> rfl
    rw [decide_eq_false inTime, uncounted]

theorem State.unsyncedGo_eq (n : Nat) (tick : Int) (o : Nat) :
    s.unsyncedGo n tick o = (s.arrived countUnsynced).go n s.showTick tick o true :=
  rfl

@[simp] theorem State.arrived_play (count : PlayStats → PlayStats) :
    (s.arrived count).play = { s.play with pendingGo := none } := by
  simp only [State.arrived, State.tallyPlay_play, State.dropPending]
  split
  · rfl
  · next empty => rw [← empty]

theorem State.arrived_eq (count : PlayStats → PlayStats) :
    s.arrived count = { s with play := (s.arrived count).play, stats := (s.arrived count).stats } := by
  ext1 <;> simp [State.arrived]

/-- A dropped GO is counted apart from those taken, late and unsynced (R92). -/
theorem State.dropPending_playCounts :
    s.dropPending.stats.play.gosTaken = s.stats.play.gosTaken ∧
      s.dropPending.stats.play.lateGos = s.stats.play.lateGos ∧
      s.dropPending.stats.play.unsynced = s.stats.play.unsynced := by
  unfold State.dropPending
  split
  · cases counting : s.setup.counting <;> simp [counting]
  · exact ⟨rfl, rfl, rfl⟩

theorem State.arrived_late (isLate : Bool) :
    (s.arrived (countLate isLate)).stats.play.gosTaken = s.stats.play.gosTaken ∧
      (s.arrived (countLate isLate)).stats.play.lateGos =
        (if isLate then s.counter s.stats.play.lateGos else s.stats.play.lateGos) ∧
      (s.arrived (countLate isLate)).stats.play.unsynced = s.stats.play.unsynced := by
  obtain ⟨gos, late, unsynced⟩ := s.dropPending_playCounts
  cases counting : s.setup.counting <;>
    simp [State.arrived, countLate, State.counter, sat, counting, gos, late, unsynced]

theorem State.arrived_unsynced :
    (s.arrived countUnsynced).stats.play.gosTaken = s.stats.play.gosTaken ∧
      (s.arrived countUnsynced).stats.play.lateGos = s.stats.play.lateGos ∧
      (s.arrived countUnsynced).stats.play.unsynced = s.counter s.stats.play.unsynced := by
  obtain ⟨gos, late, unsynced⟩ := s.dropPending_playCounts
  cases counting : s.setup.counting <;>
    simp [State.arrived, countUnsynced, State.counter, sat, counting, gos, late, unsynced]

end

/-! ### The three ways a GO is taken (R72 to R74, R81) -/

section

variable {s u : State} {q : Cue}

theorem State.resolve_congr (cues : u.cues = s.cues) (lastGo : u.play.lastGo = s.play.lastGo) (n : Nat) :
    u.resolve n = s.resolve n := by
  rw [State.resolve, State.resolve, cues, lastGo]

/-- All that a take does to a state, made in one that differs from it in the slots of playback and the counters. -/
theorem State.takeGo_spec (same : u = { s with play := u.play, stats := u.stats })
    (intensity : u.play.intensity = s.play.intensity) (colour : u.play.colour = s.play.colour) (n : Nat)
    (goTick carried : Int) (isUnsynced : Bool) :
    let t := u.takeGo q n goTick carried isUnsynced
    LevelsTaken s t q n goTick carried ∧ t.play.pendingGo = u.play.pendingGo ∧
      t.stats.play = { u.stats.play with gosTaken := s.counter u.stats.play.gosTaken } ∧
      t = { s with
        play := t.play, stats := t.stats, outbox := t.outbox, ports := t.ports, longestWait := t.longestWait } := by
  intro t
  have clock : u.clock = s.clock := by rw [same]
  have setup : u.setup = s.setup := by rw [same]
  have levels : LevelsTaken u t q n goTick carried := u.takeGo_levelsTaken q n goTick carried isUnsynced
  obtain ⟨-, -, -, -, -, slot⟩ := u.takeGo_play q n goTick carried isUnsynced
  have counts := u.takeGo_playCounts q n goTick carried isUnsynced
  have frame : t = { u with
      play := t.play, stats := t.stats, outbox := t.outbox, ports := t.ports, longestWait := t.longestWait } :=
    u.takeGo_eq q n goTick carried isUnsynced
  refine ⟨levels.congr clock intensity colour, slot, ?_, ?_⟩
  · rw [counts, State.counter, setup]
    rfl
  · clear_value t
    refine frame.trans ?_
    rw [same]

section

variable {f : Frame}

theorem State.arrived_resolve (s : State) (f : Frame) (count : PlayStats → PlayStats) (n : Nat) :
    ((s.heard f).arrived count).resolve n = s.resolve n :=
  State.resolve_congr (by rw [State.arrived_eq]; rfl) (by simp) n

theorem exec_cueGo_synced (hold : CuesHold s) (taken : Taken s .cueGo f)
    (new : ¬ DuplicateGo s (fieldAt f.payload 0 2) (fieldAt f.payload 2 4 : Nat))
    (resolves : ResolvesTo s (fieldAt f.payload 0 2) q) (synced : s.clock.synced = true)
    (reached : (fieldAt f.payload 2 4 : Nat) ≤ s.showTick) :
    exec (.cueGo f) s =
      .next (((s.heard f).arrived (countLate ((fieldAt f.payload 2 4 : Nat) < s.showTick))).takeGo q
        (fieldAt f.payload 0 2) (fieldAt f.payload 2 4 : Nat) (fieldAt f.payload 2 4 : Nat) false) := by
  rw [exec_cueGo taken new, if_pos synced, (s.heard f).syncedGo_eq _ reached,
    State.go_of_resolve ((State.arrived_resolve s f _ _).trans (hold.resolve_eq resolves))]
  rfl

theorem exec_cueGo_unsynced (hold : CuesHold s) (taken : Taken s .cueGo f)
    (new : ¬ DuplicateGo s (fieldAt f.payload 0 2) (fieldAt f.payload 2 4 : Nat))
    (resolves : ResolvesTo s (fieldAt f.payload 0 2) q) (unsynced : ¬ s.clock.synced = true) :
    exec (.cueGo f) s =
      .next (((s.heard f).arrived countUnsynced).takeGo q (fieldAt f.payload 0 2) s.showTick
        (fieldAt f.payload 2 4 : Nat) true) := by
  rw [exec_cueGo taken new, if_neg unsynced, State.unsyncedGo_eq,
    State.go_of_resolve ((State.arrived_resolve s f _ _).trans (hold.resolve_eq resolves))]
  rfl

theorem exec_pendingGoTick {g : PendingGo} (hold : CuesHold s) (pending : s.play.pendingGo = some g)
    (reached : g.tick ≤ s.showTick) (resolves : ResolvesTo s g.cueField q) :
    exec .pendingGoTick s =
      .next ((s.withPlay { s.play with pendingGo := none }).takeGo q g.cueField g.tick g.tick false) := by
  have resolved : (s.withPlay { s.play with pendingGo := none }).resolve g.cueField = some q := hold.resolve_eq resolves
  simp only [exec, execPendingGoTick, pending, if_pos reached, State.takePendingGo, State.go_of_resolve resolved]

theorem exec_followTick {g : FollowTimer} (hold : CuesHold s) (follow : s.play.follow = some g)
    (reached : g.tick ≤ s.showTick) (next : NextCue s g.source q) :
    exec .followTick s =
      .next (((s.withPlay { s.play with follow := none }).tallyPlay fun k =>
        { k with followsTaken := sat k.followsTaken }).takeGo q q.number g.tick g.tick false) := by
  simp only [exec, execFollowTick, follow, if_pos reached, State.takeFollow, State.withPlay_cues,
    hold.cueAfter_eq next]

end

end

/-- Settles O30: each way takes the cue it resolves to in a state whose lanes are those it found, and which has counted
the arrival or the follow. -/
theorem goTakesLevels : Obligations.GoTakesLevels := by
  intro s q hold now play frame
  refine ⟨?_, ?_, ?_⟩
  · intro f taken n tick new resolves
    constructor
    · intro mode reached
      have run : exec (.cueGo f) s =
          .next (((s.heard f).arrived (countLate (tick < now))).takeGo q n tick tick false) :=
        exec_cueGo_synced hold taken new resolves (Clock.synced_iff.mpr mode) reached
      obtain ⟨levels, slot, counts, rest⟩ := State.takeGo_spec (s := s) (q := q)
        ((s.heard f).arrived_eq (countLate (tick < now))) (by simp) (by simp) n tick tick false
      obtain ⟨gos, late, unsynced⟩ := (s.heard f).arrived_late (tick < now)
      rw [State.heard_stats_play] at gos late unsynced
      refine ⟨_, run, levels, slot.trans (by simp), ?_, ?_, ?_, rest⟩
      · rw [counts, gos]
      · rw [counts, late]
        simp only [decide_eq_true_eq]
        rfl
      · rw [counts, unsynced]
    · intro mode
      have unsynced : ¬ s.clock.synced = true := by
        rw [Clock.synced_iff]
        rcases mode with mode | mode <;> simp [mode]
      have run : exec (.cueGo f) s = .next (((s.heard f).arrived countUnsynced).takeGo q n now tick true) :=
        exec_cueGo_unsynced hold taken new resolves unsynced
      obtain ⟨levels, slot, counts, rest⟩ := State.takeGo_spec (s := s) (q := q)
        ((s.heard f).arrived_eq countUnsynced) (by simp) (by simp) n now tick true
      obtain ⟨gos, late, unsynced⟩ := (s.heard f).arrived_unsynced
      rw [State.heard_stats_play] at gos late unsynced
      refine ⟨_, run, levels, slot.trans (by simp), ?_, ?_, ?_, rest⟩
      · rw [counts, gos]
      · rw [counts, unsynced]
        rfl
      · rw [counts, late]
  · intro g pending reached resolves
    have run := exec_pendingGoTick hold pending reached resolves
    obtain ⟨levels, slot, counts, rest⟩ := State.takeGo_spec (s := s) (q := q)
      (u := s.withPlay { s.play with pendingGo := none }) rfl rfl rfl g.cueField g.tick g.tick false
    exact ⟨_, run, levels, slot, counts, rest⟩
  · intro g follow reached next
    have run := exec_followTick hold follow reached next
    obtain ⟨levels, slot, counts, rest⟩ := State.takeGo_spec (s := s) (q := q)
      (u := (s.withPlay { s.play with follow := none }).tallyPlay fun k =>
        { k with followsTaken := sat k.followsTaken }) rfl rfl rfl q.number g.tick g.tick false
    refine ⟨_, run, levels, slot, counts.trans ?_, rest⟩
    cases counting : s.setup.counting <;> simp [play, State.counter, sat, counting]

end Sys2Proof.Machine

/-! What a CUE-GO that is not taken leaves: absorbed as a duplicate, waiting in the pending slot, or refused with NO-CUE; and
the pending GO and the follow that are refused (R64, R71 to R75, R81). -/

namespace Sys2Proof.Machine

/-! ### A GO that resolves to no cue (R60, R75) -/

/-- The first record of an ascending list with a property has it, and is the lowest that does (R53). -/
theorem lowest_of_find_cue {cs : List Cue} {p : Cue → Bool} {q : Cue}
    (sorted : (cs.map fun r => r.number).Pairwise (· < ·)) (found : cs.find? p = some q) :
    q ∈ cs ∧ p q = true ∧ ∀ r ∈ cs, p r = true → q.number ≤ r.number := by
  obtain ⟨holds, before, after, rfl, fails⟩ := List.find?_eq_some_iff_append.mp found
  rw [List.map_append, List.map_cons, List.pairwise_append, List.pairwise_cons] at sorted
  obtain ⟨-, ⟨below, -⟩, -⟩ := sorted
  refine ⟨by simp, holds, fun r mem h => ?_⟩
  rcases List.mem_append.mp mem with early | late
  · have := fails r early
    simp [h] at this
  · rcases List.mem_cons.mp late with rfl | later
    · exact Nat.le_refl _
    · exact Nat.le_of_lt (below _ (List.mem_map_of_mem later))

section

variable {s : State} {q : Cue} {n : Nat}

theorem CuesHold.nextCue_of_cueAfter (hold : CuesHold s) (found : s.cues.cueAfter n = some q) : NextCue s n q := by
  obtain ⟨mem, above, lowest⟩ := lowest_of_find_cue hold.sorted found
  exact ⟨mem, of_decide_eq_true above, fun r hr h => lowest r hr (decide_eq_true h)⟩

theorem CuesHold.lowest_of_firstCue (hold : CuesHold s) (found : s.cues.firstCue = some q) :
    q ∈ s.cues.cues ∧ ∀ r ∈ s.cues.cues, q.number ≤ r.number := by
  have first : s.cues.cues.find? (fun _ => true) = some q := by
    rw [← found, CueStore.firstCue]
    cases s.cues.cues <;> rfl
  obtain ⟨mem, -, lowest⟩ := lowest_of_find_cue hold.sorted first
  exact ⟨mem, fun r hr => lowest r hr rfl⟩

/-- The cue a GO is resolved to is the one the rule names, where there is one (R75). -/
theorem CuesHold.resolvesTo_of_resolve (hold : CuesHold s) (found : s.resolve n = some q) : ResolvesTo s n q := by
  unfold State.resolve at found
  split at found
  · next zero =>
    refine ⟨fun other => absurd zero other, fun _ g last => ?_, fun _ last => ?_⟩
    · rw [last] at found
      exact hold.nextCue_of_cueAfter found
    · rw [last] at found
      exact hold.lowest_of_firstCue found
  · next other =>
    have number : q.number = n := by simpa using List.find?_some found
    exact ⟨fun _ => ⟨List.mem_of_find?_eq_some found, number⟩, fun zero => absurd zero other,
      fun zero => absurd zero other⟩

theorem CuesHold.resolve_eq_none (hold : CuesHold s) (nothing : ∀ q, ¬ ResolvesTo s n q) : s.resolve n = none :=
  Option.eq_none_iff_forall_ne_some.mpr fun q found => nothing q (hold.resolvesTo_of_resolve found)

theorem CuesHold.cueAfter_eq_none (hold : CuesHold s) (nothing : ∀ q, ¬ NextCue s n q) : s.cues.cueAfter n = none :=
  Option.eq_none_iff_forall_ne_some.mpr fun q found => nothing q (hold.nextCue_of_cueAfter found)

theorem State.go_of_unresolved (h : s.resolve n = none) (goTick carried : Int) (o : Nat) (u : Bool) :
    s.go n goTick carried o u = s.refused .noCue n o := by
  rw [State.go, h]
  rfl

end

/-! ### The arrival of a GO (R71 to R73) -/

section

variable {s : State} {f : Frame}

theorem Clock.not_synced {c : Clock} (mode : c.mode = .free ∨ c.mode = .seek) : ¬ c.synced = true := by
  rw [Clock.synced_iff]
  rcases mode with mode | mode <;> simp [mode]

/-- Two events counted one after the other are counted at once. -/
theorem State.tallyPlay_tallyPlay (s : State) (a b : PlayStats → PlayStats) :
    (s.tallyPlay a).tallyPlay b = s.tallyPlay fun k => b (a k) := by
  cases counting : s.setup.counting <;> simp [State.tallyPlay, State.tally, State.withStats, counting]

/-- A pending GO that is replaced, if there is one (R72, R73). -/
def State.countReplaced (s : State) (k : PlayStats) : PlayStats :=
  if s.play.pendingGo = none then k else { k with pendingReplaced := sat k.pendingReplaced }

/-- An arrival empties the slot and counts the GO it held with itself (R72, R73). -/
theorem State.arrived_tally (s : State) (count : PlayStats → PlayStats) :
    s.arrived count =
      ({ s with play := { s.play with pendingGo := none } } : State).tallyPlay fun k => count (s.countReplaced k) := by
  cases pending : s.play.pendingGo with
  | none =>
    have empty : ({ s with play := { s.play with pendingGo := none } } : State) = s := by rw [← pending]
    simp [State.arrived, State.dropPending, State.countReplaced, pending, empty]
  | some g =>
    simp only [State.arrived, State.dropPending, State.countReplaced, pending, State.tallyPlay_tallyPlay,
      reduceCtorEq, if_false]
    rfl

/-- An event that raises no counter leaves the state. -/
theorem State.tallyPlay_id (s : State) : s.tallyPlay id = s := by
  simp only [State.tallyPlay, State.tally]
  split <;> rfl

theorem exec_cueGo_duplicate (taken : Taken s .cueGo f)
    (duplicate : DuplicateGo s (fieldAt f.payload 0 2) (fieldAt f.payload 2 4 : Nat)) :
    exec (.cueGo f) s = .next ((s.heard f).tallyPlay fun k => { k with duplicates := sat k.duplicates }) := by
  have handed : exec (.cueGo f) s = .next ((s.heard f).takeCueGo (readTickFields f.payload) f.origin.toNat) :=
    congrArg Host.Outcome.next (handOn_of_taken taken)
  have isDuplicate : (s.heard f).play.isDuplicateGo (fieldAt f.payload 0 2) (fieldAt f.payload 2 4 : Nat) = true :=
    Playback.isDuplicateGo_iff.mpr duplicate
  rw [handed, State.takeCueGo]
  exact congrArg Host.Outcome.next (if_pos isDuplicate)

/-- A GO whose tick is ahead of a synced clock fills the slot (R72). -/
theorem State.syncedGo_ahead (s : State) {n : Nat} {tick : Int} (o : Nat) (ahead : s.showTick < tick) :
    s.syncedGo n tick o =
      ({ s with
        play := { s.play with pendingGo := some { cueField := n, tick := tick, origin := o } } } : State).tallyPlay
          s.countReplaced := by
  have dropped := s.arrived_tally id
  rw [State.arrived, State.tallyPlay_id] at dropped
  rw [State.syncedGo, if_pos ahead, dropped]
  rfl

end

/-- Settles O29: a duplicate, a GO that waits, and the four ways to a cue that is not held. -/
theorem goNotTaken : Obligations.GoNotTaken := by
  refine ⟨?_, ?_, ?_⟩
  · intro s f taken n tick dropped empty
    refine ⟨fun duplicate => exec_cueGo_duplicate taken duplicate, fun new mode ahead => ?_,
      fun new mode reached hold nothing => ?_, fun new mode hold nothing => ?_⟩
    · rw [exec_cueGo taken new, if_pos (Clock.synced_iff.mpr mode)]
      exact congrArg Host.Outcome.next ((s.heard f).syncedGo_ahead _ ahead)
    · rw [exec_cueGo taken new, if_pos (Clock.synced_iff.mpr mode), (s.heard f).syncedGo_eq _ reached,
        State.go_of_unresolved ((State.arrived_resolve s f _ _).trans (hold.resolve_eq_none nothing)),
        State.arrived_tally]
      simp only [countLate, decide_eq_true_eq]
      rfl
    · rw [exec_cueGo taken new, if_neg (Clock.not_synced mode), State.unsyncedGo_eq,
        State.go_of_unresolved ((State.arrived_resolve s f _ _).trans (hold.resolve_eq_none nothing)),
        State.arrived_tally]
      rfl
  · intro s g hold pending reached nothing
    have unresolved : (s.withPlay { s.play with pendingGo := none }).resolve g.cueField = none :=
      hold.resolve_eq_none nothing
    simp only [exec, execPendingGoTick, pending, State.takePendingGo, State.go_of_unresolved unresolved]
    exact congrArg Host.Outcome.next (if_pos reached)
  · intro s g hold follow reached nothing
    simp only [exec, execFollowTick, follow, State.takeFollow, State.withPlay_cues, hold.cueAfter_eq_none nothing]
    exact congrArg Host.Outcome.next (if_pos reached)

end Sys2Proof.Machine

/-! What a CUE-RELEASE leaves: absorbed within 20 ms of the last, or taken, with an open gather cancelled, INTENSITY on its
way out and the position pair waiting for dark (R83, R84, R107). -/

namespace Sys2Proof.Machine

/-! ### An open gather cancelled (R107) -/

/-- The counters once an open gather, if there is one, is cancelled (R109). -/
def State.cancelCounts (s : State) : Stats :=
  { s.stats with
    plan := { s.stats.plan with
      gathersCancelled :=
        if s.play.gather = none then s.stats.plan.gathersCancelled else s.counter s.stats.plan.gathersCancelled } }

/-- All that the cancelling of an open gather does; where none is open, nothing (R107). -/
theorem State.cancelGather_eq (s : State) :
    s.cancelGather =
      { s with
        play := { s.play with gather := none, finished := finishedBy s }, stats := s.cancelCounts } := by
  cases gather : s.play.gather with
  | none =>
    have play : s.play = { s.play with gather := none, finished := finishedBy s } := by
      simp only [finishedBy, gather]
      rw [← gather]
    simp only [State.cancelGather, State.cancelCounts, gather, if_true, ← play]
  | some g =>
    cases counting : s.setup.counting <;>
      simp [State.cancelGather, State.cancelCounts, State.finishGather, State.tallyPlan, State.tally, State.withStats,
        State.withPlay, State.counter, sat, finishedBy, gather, counting]

/-! ### The release as it is taken (R83, R84) -/

section

variable {s u : State} {f : Frame}

theorem exec_cueRelease (taken : Taken s .cueRelease f) :
    exec (.cueRelease f) s = .next ((s.heard f).takeCueRelease (readTickFields f.payload)) :=
  congrArg Host.Outcome.next (handOn_of_taken taken)

/-- The Playback Unit after a release is taken: the lanes, and the records it empties and sets (R83, R84, R107). -/
theorem State.takeRelease_play (s : State) (ms : Nat) (carried effective : Int) :
    (s.takeRelease ms carried effective).play =
      { s.play with
        pos :=
          { timing := { state := .wait .dark, startTick := effective, endTick := none },
            start := s.play.pos.values s.showTick,
            target := { pan := (s.settings.axes.pan.park : Nat), tilt := (s.settings.axes.tilt.park : Nat) },
            plan := none, moveMs := 0 },
        intensity := s.play.intensity.retarget 0 effective (effective + (ms : Nat)) s.showTick,
        pendingGo := none, follow := none, lastRelease := some carried, gather := none, finished := finishedBy s } := by
  simp only [State.takeRelease, State.cancelGather_eq, State.tallyPlay_play]
  rfl

/-- A release taken is one more, and nothing else of the Playback Unit's own (R92). -/
theorem State.takeRelease_playCounts (s : State) (ms : Nat) (carried effective : Int) :
    (s.takeRelease ms carried effective).stats.play =
      { s.stats.play with releasesTaken := s.counter s.stats.play.releasesTaken } := by
  cases counting : s.setup.counting <;> simp [State.takeRelease, State.counter, sat, counting]

theorem State.takeRelease_eq (s : State) (ms : Nat) (carried effective : Int) :
    s.takeRelease ms carried effective =
      { s with
        play := (s.takeRelease ms carried effective).play, stats := (s.takeRelease ms carried effective).stats } := by
  ext1 <;> simp

theorem countLate_false : countLate false = id := rfl

/-- How the arrival of a release is counted: late on a synced clock, or unsynced (R83). -/
def State.countRelease (s : State) (tick : Int) : PlayStats → PlayStats :=
  if s.clock.synced then countLate (tick < s.showTick) else countUnsynced

/-- A release that is no duplicate counts its arrival and is taken, from its tick on a synced clock and otherwise from
now (R83). -/
theorem State.takeCueRelease_eq (s : State) (r : TickFields)
    (new : ∀ t, s.play.lastRelease = some t → ¬ Within20 (r.tick : Nat) t) :
    s.takeCueRelease r =
      (s.tallyPlay (s.countRelease (r.tick : Nat))).takeRelease (min r.value 60000) (r.tick : Nat)
        (if s.clock.synced then ((r.tick : Nat) : Int) else s.showTick) := by
  have notDuplicate : ¬ (s.play.lastRelease.any fun t => ticksAgree (r.tick : Nat) t) = true := by
    simpa [Option.any_eq_true, ticksAgree_iff] using new
  simp only [State.takeCueRelease, State.countRelease]
  rw [if_neg notDuplicate]
  split
  · split
    · next late =>
      rw [decide_eq_true late]
      rfl
    · next inTime =>
      rw [decide_eq_false inTime, countLate_false, State.tallyPlay_id]
  · rfl

theorem exec_cueRelease_duplicate (taken : Taken s .cueRelease f) {r : Int} (last : s.play.lastRelease = some r)
    (near : Within20 (fieldAt f.payload 2 4 : Nat) r) :
    exec (.cueRelease f) s = .next ((s.heard f).tallyPlay fun k => { k with duplicates := sat k.duplicates }) := by
  have duplicate : ((s.heard f).play.lastRelease.any fun t => ticksAgree (fieldAt f.payload 2 4 : Nat) t) = true := by
    simpa [Option.any_eq_true, ticksAgree_iff, last] using near
  rw [exec_cueRelease taken, State.takeCueRelease]
  exact congrArg Host.Outcome.next (if_pos duplicate)

theorem State.countRelease_playCounts (s : State) (tick : Int) :
    let k := (s.tallyPlay (s.countRelease tick)).stats.play
    k.releasesTaken = s.stats.play.releasesTaken ∧
      (s.clock.synced = true → tick < s.showTick → k.lateGos = s.counter s.stats.play.lateGos) ∧
      (¬ s.clock.synced = true → k.unsynced = s.counter s.stats.play.unsynced) := by
  cases synced : s.clock.synced <;> cases counting : s.setup.counting <;>
    simp +contextual [State.countRelease, countLate, countUnsynced, State.counter, sat, synced, counting]

end

/-- Settles O34: a release absorbed, and one taken from its effective tick. -/
theorem cueRelease : Obligations.CueRelease := by
  intro s f taken tick ms now synced begins
  refine ⟨fun r last near => exec_cueRelease_duplicate taken last near, fun new => ?_⟩
  have isSynced : s.clock.synced = true ↔ synced := Clock.synced_iff
  let u := (s.heard f).tallyPlay ((s.heard f).countRelease tick)
  have run : exec (.cueRelease f) s = .next (u.takeRelease ms tick begins) := by
    rw [exec_cueRelease taken, State.takeCueRelease_eq _ _ new]
    simp only [State.heard_clock, Clock.synced_iff]
    rfl
  have play := u.takeRelease_play ms tick begins
  have counts := u.takeRelease_playCounts ms tick begins
  have frame := u.takeRelease_eq ms tick begins
  obtain ⟨releases, late, unsynced⟩ := (s.heard f).countRelease_playCounts tick
  rw [State.heard_stats_play] at releases late unsynced
  refine ⟨u.takeRelease ms tick begins, run, ?_, ?_, ?_, ?_, ?_, fun on behind => ?_, fun off => ?_, frame⟩
  · rw [play]
    rfl
  · rw [play]
    rfl
  · rw [play]
    exact levelTiming_timingSet _ _ _
  · rw [play]
    rfl
  · rw [counts, releases]
    rfl
  · rw [counts]
    exact late (isSynced.mpr on) behind
  · rw [counts]
    exact unsynced (mt isSynced.mp off)

end Sys2Proof.Machine

/-! What a taken GO makes of the position pair: an open gather cancelled, and then a wait for dark, a gather of its own, or
a plain move (R76, R78, R79, R94, R100 to R102, R105, R107). -/

namespace Sys2Proof.Machine

/-! ### Plain moves (R79) -/

theorem State.plainMove_spec (s : State) (start target : PerAxis Int) (moveMs : Nat) (startTick now : Int) :
    PlainMove s start target moveMs startTick now (s.plainMove start target moveMs startTick now).1 := by
  by_cases ahead : now < startTick
  · simp [PlainMove, State.plainMove, ahead, Int.max_eq_right (Int.le_of_lt ahead)]
  · have reached : max now startTick = now := Int.max_eq_left (Int.not_lt.mp ahead)
    by_cases still : (s.plan start target (startTick + (moveMs : Nat) - now).toNat 15000).length = 0
    · simp [PlainMove, State.plainMove, fadeFrom, ahead, reached, still]
    · simp [PlainMove, State.plainMove, fadeFrom, ahead, reached, still, Nat.pos_of_ne_zero still]

/-- A plan, stretched or not, counts no gather (R97, R109). -/
@[simp] theorem State.countStretched_gatherCounts (s : State) (p : Plan) :
    (s.countStretched p).stats.plan.gathersOpened = s.stats.plan.gathersOpened ∧
      (s.countStretched p).stats.plan.gathersCancelled = s.stats.plan.gathersCancelled := by
  unfold State.countStretched
  split
  · cases counting : s.setup.counting <;> simp [counting]
  · exact ⟨rfl, rfl⟩

@[simp] theorem State.setPlain_gatherCounts (s : State) (start target : PerAxis Int) (moveMs : Nat)
    (startTick now : Int) :
    (s.setPlain start target moveMs startTick now).stats.plan.gathersOpened = s.stats.plan.gathersOpened ∧
      (s.setPlain start target moveMs startTick now).stats.plan.gathersCancelled =
        s.stats.plan.gathersCancelled := by
  simp [State.setPlain]

theorem State.setPlain_play (s : State) (start target : PerAxis Int) (moveMs : Nat) (startTick now : Int) :
    (s.setPlain start target moveMs startTick now).play =
      { s.play with pos := (s.plainMove start target moveMs startTick now).1 } := by
  simp [State.setPlain]

/-- A plain move opens no gather. -/
theorem State.setPlain_noGather {s u : State} (before : NoGather s u) (start target : PerAxis Int) (moveMs : Nat)
    (startTick now : Int) : NoGather s (u.setPlain start target moveMs startTick now) := by
  obtain ⟨gather, finished, early, opened, outbox, ports, wait⟩ := before
  simp only [NoGather, NothingPlaced, State.setPlain_play, State.setPlain_gatherCounts, State.setPlain_frame]
  exact ⟨gather, finished, early, opened, outbox, ports, wait⟩

/-! ### A gather opened (R100 to R102, R105) -/

theorem isShowTick_iff {t : Int} : isShowTick t = true ↔ 0 ≤ t ∧ t ≤ 4294967295 := by
  simp [isShowTick]

theorem EarlyNote.agrees_iff {n : EarlyNote} {group cue : Nat} {tick : Int} :
    n.agrees group cue tick = true ↔
      n.group = group ∧ n.cue = cue ∧ -20 ≤ tick - n.goTick ∧ tick - n.goTick ≤ 20 := by
  simp [EarlyNote.agrees, ticksAgree_iff, Within20, and_assoc]

section

variable (s : State) (q : Cue) (p : PosPart) (goTick : Int)

/-- The plan a grouped take opens its gather with (R101). -/
def State.ownPlan : Plan :=
  s.plan (s.play.pos.values s.showTick) p.lanes p.moveMs 15000

/-- The gather a grouped take opens (R100, R101). -/
def State.gatherFor : Gather :=
  newGather s.settings.gatherWindow (s.ownPlan p).length p.moveGroup q.number goTick (q.delay : Nat) s.play.early

/-- The early notes a gather takes up (R101). -/
def State.notesFor : List EarlyNote :=
  s.play.early.filter fun n => n.agrees p.moveGroup q.number goTick

/-- The Playback Unit with the gather of a grouped take just opened: its lanes in WAIT, its notes taken up (R101). -/
def State.gatheringPlay : Playback :=
  { s.play with
    pos :=
      { timing := { state := .wait .gather, startTick := (s.gatherFor q p goTick).closeTick, endTick := none },
        start := s.play.pos.values s.showTick, target := (s.ownPlan p).target, plan := none, moveMs := p.moveMs },
    gather := some (s.gatherFor q p goTick),
    early := s.play.early.filter fun n => !n.agrees p.moveGroup q.number goTick }

/-- The state with a gather just opened and its MOVE-NOTE placed, before a close that may follow at once (R101, R102). -/
def State.gathering : State :=
  ((s.withPlay (s.gatheringPlay q p goTick)).place .moveNote toAll (s.gatherFor q p goTick).note).tallyPlan fun k =>
    { k with
      notesMatched := satBy (s.notesFor q p goTick).length k.notesMatched, gathersOpened := sat k.gathersOpened }

theorem State.gathering_play : (s.gathering q p goTick).play = s.gatheringPlay q p goTick := by
  simp [State.gathering]

theorem State.gathering_opened :
    (s.gathering q p goTick).stats.plan.gathersOpened = s.counter s.stats.plan.gathersOpened := by
  cases counting : s.setup.counting <;> simp [State.gathering, State.counter, sat, counting]

/-- The MOVE-NOTE an opened gather places (R102). -/
theorem State.gathering_notePlaced :
    NotePlaced s (s.gathering q p goTick) .moveNote toAll (s.gatherFor q p goTick).note := by
  have placed := (s.withPlay (s.gatheringPlay q p goTick)).place_notePlaced .moveNote toAll
    (s.gatherFor q p goTick).note (by decide)
  exact placed.congr rfl rfl rfl rfl rfl rfl rfl

/-- The plan of a close that follows at once starts from the values of the take (R105). -/
theorem State.gathering_closePlan (g : Gather) :
    (s.gathering q p goTick).closePlan g =
      s.plan (s.play.pos.values s.showTick) (s.ownPlan p).target (g.effectiveEnd - s.showTick).toNat
        (max 15000 g.ownPlan) := by
  have same : (s.gathering q p goTick).settings = s.settings ∧ (s.gathering q p goTick).feed = s.feed ∧
      (s.gathering q p goTick).clock = s.clock := by
    simp [State.gathering]
  obtain ⟨settings, feed, clock⟩ := same
  simp only [State.closePlan, State.plan, State.gathering_play, State.showTick, settings, feed, clock]
  rfl

theorem State.closeGather_play (u : State) (g : Gather) :
    (u.closeGather g).play =
      { u.play with
        pos := fadeFrom u.play.pos.start u.play.pos.moveMs (u.closePlan g) u.showTick, gather := none,
        finished := some { group := g.group, cue := g.cue, goTick := g.goTick } } := by
  simp [State.closeGather, State.finishGather]

@[simp] theorem State.closeGather_gatherCounts (u : State) (g : Gather) :
    (u.closeGather g).stats.plan.gathersOpened = u.stats.plan.gathersOpened ∧
      (u.closeGather g).stats.plan.gathersCancelled = u.stats.plan.gathersCancelled := by
  cases counting : u.setup.counting <;>
    simp [State.closeGather, State.finishGather, counting]

variable {s q p goTick}

/-- A grouped take whose ticks lie within show time opens its gather, and closes it at once when its close tick has been
reached (R101, R105). -/
theorem State.openGather_shown (atGo : isShowTick goTick = true)
    (atEnd : isShowTick (s.gatherFor q p goTick).ownEnd = true) :
    s.openGather (s.play.pos.values s.showTick) p.lanes p.moveMs p.moveGroup q.number goTick (q.delay : Nat) =
      if (s.gatherFor q p goTick).closeTick ≤ s.showTick then
        (s.gathering q p goTick).closeGather (s.gatherFor q p goTick)
      else s.gathering q p goTick := by
  have shown : ¬ (!isShowTick goTick || !isShowTick (s.gatherFor q p goTick).ownEnd) = true := by simp [atGo, atEnd]
  exact if_neg shown

/-- A grouped take with a tick outside show time makes a plain move (R101). -/
theorem State.openGather_unshown
    (outside : ¬ (isShowTick goTick = true ∧ isShowTick (s.gatherFor q p goTick).ownEnd = true)) :
    s.openGather (s.play.pos.values s.showTick) p.lanes p.moveMs p.moveGroup q.number goTick (q.delay : Nat) =
      s.setPlain (s.play.pos.values s.showTick) p.lanes p.moveMs (goTick + (q.delay : Nat)) s.showTick := by
  have unshown : (!isShowTick goTick || !isShowTick (s.gatherFor q p goTick).ownEnd) = true := by
    rw [← Bool.not_and, Bool.not_eq_true', ← Bool.not_eq_true, Bool.and_eq_true]
    exact outside
  exact if_pos unshown

/-- A grouped take cancels no gather. -/
@[simp] theorem State.openGather_gathersCancelled (start target : PerAxis Int) (moveMs group cue : Nat)
    (tick delay : Int) :
    (s.openGather start target moveMs group cue tick delay).stats.plan.gathersCancelled =
      s.stats.plan.gathersCancelled := by
  cases counting : s.setup.counting <;> simp only [State.openGather] <;> (repeat' split) <;> simp [counting]

variable {t : State}

/-- What a statement of an opened gather comes down to in the terms of the model (R101, R103, R105). -/
theorem gatherOpened_of (early : t.play.early = (s.gatheringPlay q p goTick).early)
    (opened : t.stats.plan.gathersOpened = s.counter s.stats.plan.gathersOpened)
    (placed : NotePlaced s t .moveNote toAll (s.gatherFor q p goTick).note)
    (waits : s.showTick < (s.gatherFor q p goTick).closeTick →
      t.play.gather = some (s.gatherFor q p goTick) ∧ t.play.finished = finishedBy s ∧
        t.play.pos = (s.gatheringPlay q p goTick).pos)
    (closed : (s.gatherFor q p goTick).closeTick ≤ s.showTick →
      t.play.gather = none ∧
        t.play.finished = some { group := p.moveGroup, cue := q.number, goTick := goTick } ∧
        t.play.pos =
          fadeFrom (s.play.pos.values s.showTick) p.moveMs
            ((s.gathering q p goTick).closePlan (s.gatherFor q p goTick)) s.showTick) :
    GatherOpened s t q p goTick := by
  unfold GatherOpened
  intro now start onto plan closes ends agrees taken g longest last
  have notes : taken = s.notesFor q p goTick :=
    List.filter_congr fun n _ => by rw [Bool.eq_iff_iff, decide_eq_true_eq, EarlyNote.agrees_iff]
  have others : (s.play.early.filter fun n => ¬ agrees n) = (s.gatheringPlay q p goTick).early :=
    List.filter_congr fun n _ => by
      rw [Bool.eq_iff_iff, decide_eq_true_eq, Bool.not_eq_true', ← Bool.not_eq_true, EarlyNote.agrees_iff]
  have record : g = s.gatherFor q p goTick := by
    simp only [g, notes, List.foldl_map]
    rfl
  have lastPlan : last = (s.gathering q p goTick).closePlan (s.gatherFor q p goTick) := by
    rw [State.gathering_closePlan, ← record]
    rfl
  refine ⟨early.trans others.symm, opened, placed, fun ahead => ?_, fun reached => ?_⟩
  · rw [record]
    exact waits ahead
  · rw [lastPlan]
    exact closed reached

/-- A grouped take opens its gather (R101, R105). -/
theorem State.openGather_opened (free : s.play.gather = none) (atGo : isShowTick goTick = true)
    (atEnd : isShowTick (s.gatherFor q p goTick).ownEnd = true) :
    let t := s.openGather (s.play.pos.values s.showTick) p.lanes p.moveMs p.moveGroup q.number goTick (q.delay : Nat)
    GatherOpened s t q p goTick := by
  intro t
  have run : t = _ := State.openGather_shown atGo atEnd
  have finished : s.play.finished = finishedBy s := by rw [finishedBy, free]
  have play := s.gathering_play q p goTick
  have opened := s.gathering_opened q p goTick
  have placed := s.gathering_notePlaced q p goTick
  by_cases reached : (s.gatherFor q p goTick).closeTick ≤ s.showTick
  · rw [run, if_pos reached]
    have closedPlay := (s.gathering q p goTick).closeGather_play (s.gatherFor q p goTick)
    have closedTick : (s.gathering q p goTick).showTick = s.showTick := by simp [State.showTick, State.gathering]
    rw [play, closedTick] at closedPlay
    refine gatherOpened_of ?_ ?_ ?_ (fun ahead => ?_) (fun _ => ?_)
    · rw [closedPlay]
    · simp [opened]
    · exact placed.congr rfl rfl rfl rfl (by simp) (by simp) (by simp)
    · exact absurd reached (Int.not_le.mpr ahead)
    · rw [closedPlay]
      exact ⟨rfl, rfl, rfl⟩
  · rw [run, if_neg reached]
    refine gatherOpened_of (by rw [play]) opened placed (fun _ => ?_) fun now => absurd now reached
    rw [play]
    exact ⟨rfl, finished, rfl⟩

end

/-! ### A position part set (R78) -/

section

variable {s : State} {q : Cue} {p : PosPart} {goTick : Int}

theorem NoGather.refl (free : s.play.gather = none) : NoGather s s := by
  have finished : s.play.finished = finishedBy s := by rw [finishedBy, free]
  exact ⟨free, finished, rfl, rfl, rfl, rfl, rfl⟩

/-- A dark part waits for dark (R78). -/
theorem State.setPosition_dark (dark : p.dark = true) (isUnsynced : Bool) :
    s.setPosition q p goTick isUnsynced =
      s.withPos
        { timing := { state := .wait .dark, startTick := goTick + (q.delay : Nat), endTick := none },
          start := s.play.pos.values s.showTick, target := p.lanes, plan := none, moveMs := p.moveMs } := by
  simp [State.setPosition, dark]

/-- A grouped part of a synced take asks for a gather (R78). -/
theorem State.setPosition_grouped (bright : p.dark = false) (grouped : p.moveGroup ≠ 0)
    (synced : s.clock.synced = true) :
    s.setPosition q p goTick false =
      s.openGather (s.play.pos.values s.showTick) p.lanes p.moveMs p.moveGroup q.number goTick (q.delay : Nat) := by
  simp [State.setPosition, bright, grouped, synced]

/-- Any other part makes a plain move: one without a group, one taken unsynced, and one with a tick outside show time
(R78, R101). -/
theorem State.setPosition_plain {isUnsynced : Bool} (bright : p.dark = false)
    (plain : p.moveGroup = 0 ∨ ¬ (isUnsynced = false ∧ s.clock.synced = true) ∨
      ¬ (isShowTick goTick = true ∧ isShowTick (s.gatherFor q p goTick).ownEnd = true)) :
    s.setPosition q p goTick isUnsynced =
      s.setPlain (s.play.pos.values s.showTick) p.lanes p.moveMs (goTick + (q.delay : Nat)) s.showTick := by
  have choice : s.setPosition q p goTick isUnsynced =
      if p.moveGroup ≠ 0 ∧ isUnsynced = false ∧ s.clock.synced = true then
        s.openGather (s.play.pos.values s.showTick) p.lanes p.moveMs p.moveGroup q.number goTick (q.delay : Nat)
      else s.setPlain (s.play.pos.values s.showTick) p.lanes p.moveMs (goTick + (q.delay : Nat)) s.showTick := by
    simp [State.setPosition, bright]
  rw [choice]
  split
  · next grouped =>
    obtain ⟨group, synced⟩ := grouped
    rcases plain with ungrouped | unsynced | outside
    · exact absurd ungrouped group
    · exact absurd synced unsynced
    · exact State.openGather_unshown outside
  · rfl

theorem State.setPosition_gathersCancelled (s : State) (q : Cue) (p : PosPart) (goTick : Int) (isUnsynced : Bool) :
    (s.setPosition q p goTick isUnsynced).stats.plan.gathersCancelled = s.stats.plan.gathersCancelled := by
  simp only [State.setPosition]
  (repeat' split) <;> simp

/-- All that the setting of a cue's position part does where no gather is open (R78, R79, R101). -/
theorem State.setPosition_positionTaken {isUnsynced : Bool} {mayGroup : Prop} (pos : q.pos = some p)
    (free : s.play.gather = none) (may : mayGroup ↔ isUnsynced = false ∧ s.clock.synced = true) :
    PositionTaken s (s.setPosition q p goTick isUnsynced) q goTick mayGroup := by
  refine ⟨?_, fun without => ?_, fun p' pos' => ?_⟩
  · rw [if_pos free, State.setPosition_gathersCancelled]
  · rw [pos] at without
    cases without
  · obtain rfl : p = p' := Option.some.inj (pos.symm.trans pos')
    intro onto ends isShown
    have shown : isShown ↔ isShowTick goTick = true ∧ isShowTick (s.gatherFor q p goTick).ownEnd = true := by
      rw [isShowTick_iff, isShowTick_iff, and_assoc]
      exact Iff.rfl
    refine ⟨fun dark => ?_, fun bright plain => ?_, fun bright grouped allowed inside => ?_⟩
    · rw [State.setPosition_dark dark]
      exact ⟨NoGather.refl free, rfl⟩
    · rw [may, shown] at plain
      rw [State.setPosition_plain bright plain]
      refine ⟨State.setPlain_noGather (NoGather.refl free) .., ?_⟩
      rw [State.setPlain_play]
      exact s.plainMove_spec ..
    · obtain ⟨rfl, synced⟩ := may.mp allowed
      obtain ⟨atGo, atEnd⟩ := shown.mp inside
      rw [State.setPosition_grouped bright grouped synced]
      exact State.openGather_opened free atGo atEnd

end

/-! ### The whole take (R76, R107) -/

/-- The second state differs from the first in nothing a move reads or sets: only in level lanes, in the records of GOs,
follows and releases, and in counters other than those of move planning. -/
def MovesAlike (s u : State) : Prop :=
  ∃ (k : Playback) (m : Stats), u =
    { s with
      play := { k with
        pos := s.play.pos, gather := s.play.gather, finished := s.play.finished, early := s.play.early },
      stats := { m with plan := s.stats.plan } }

theorem MovesAlike.refl (s : State) : MovesAlike s s :=
  ⟨s.play, s.stats, rfl⟩

theorem MovesAlike.trans {s u v : State} (first : MovesAlike s u) (second : MovesAlike u v) : MovesAlike s v := by
  obtain ⟨k, m, rfl⟩ := first
  obtain ⟨k', m', rfl⟩ := second
  exact ⟨k', m', rfl⟩

theorem MovesAlike.tallyPlay {s u : State} (alike : MovesAlike s u) (count : PlayStats → PlayStats) :
    MovesAlike s (u.tallyPlay count) := by
  obtain ⟨k, m, rfl⟩ := alike
  refine ⟨k, if s.setup.counting then { m with play := count m.play } else m, ?_⟩
  cases counting : s.setup.counting <;> simp [State.tallyPlay, State.tally, State.withStats, counting]

section

variable {s u t t' : State} {q : Cue} {p : PosPart} {goTick : Int} {mayGroup : Prop}

/-- What a take makes of the position pair is the same of states that a move does not tell apart. -/
theorem PositionTaken.congr (h : PositionTaken u t q goTick mayGroup) (before : MovesAlike s u)
    (after : MovesAlike t t') : PositionTaken s t' q goTick mayGroup := by
  obtain ⟨k, m, rfl⟩ := before
  obtain ⟨k', m', rfl⟩ := after
  exact h

/-- What follows the cancelling of an open gather, as a statement of the state before it (R107). -/
theorem PositionTaken.of_cancelGather (h : PositionTaken s.cancelGather t q goTick mayGroup) (pos : q.pos = some p) :
    PositionTaken s t q goTick mayGroup := by
  rw [State.cancelGather_eq] at h
  obtain ⟨cancelled, -, sets⟩ := h
  refine ⟨cancelled, fun without => ?_, sets⟩
  rw [pos] at without
  cases without

theorem State.cancelGather_noGather (s : State) : NoGather s s.cancelGather := by
  rw [State.cancelGather_eq]
  exact ⟨rfl, rfl, rfl, rfl, rfl, rfl, rfl⟩

/-- A take of a cue without a position part plans the lanes of the gather it cancels at once, and without one leaves the
pair alone (R76, R107). -/
theorem State.endGatherForTake_positionTaken (without : q.pos = none) :
    PositionTaken s (s.endGatherForTake q) q goTick mayGroup := by
  have noPart : ∀ p, q.pos ≠ some p := fun p pos => by
    rw [without] at pos
    cases pos
  cases gather : s.play.gather with
  | none =>
    have run : s.endGatherForTake q = s := by simp only [State.endGatherForTake, gather]
    rw [run]
    exact ⟨(if_pos gather).symm, fun _ => ⟨NoGather.refl gather, fun _ => rfl, fun isOpen => absurd gather isOpen⟩,
      fun p pos => absurd pos (noPart p)⟩
  | some g =>
    have run : s.endGatherForTake q =
        s.cancelGather.setPlain s.play.pos.start s.play.pos.target s.play.pos.moveMs s.showTick s.showTick := by
      simp [State.endGatherForTake, gather, without]
    have moved := s.cancelGather.plainMove_spec s.play.pos.start s.play.pos.target s.play.pos.moveMs s.showTick s.showTick
    rw [run]
    refine ⟨?_, fun _ => ⟨State.setPlain_noGather s.cancelGather_noGather .., fun closed => ?_, fun _ => ?_⟩,
      fun p pos => absurd pos (noPart p)⟩
    · simp [State.cancelGather_eq, State.cancelCounts]
    · rw [gather] at closed
      cases closed
    · rw [State.setPlain_play]
      rw [State.cancelGather_eq] at moved ⊢
      exact moved

/-- The state of a take with its gather ended and its level lanes set, before its position part (R76, R77). -/
def State.levelsSet (s : State) (q : Cue) (goTick : Int) : State :=
  ((s.endGatherForTake q).withPlay
    { (s.endGatherForTake q).play with follow := none, lastRelease := none }).setLevels q goTick

theorem State.levelsSet_alike (s : State) (q : Cue) (goTick : Int) :
    MovesAlike (s.endGatherForTake q) (s.levelsSet q goTick) :=
  ⟨(s.levelsSet q goTick).play, (s.levelsSet q goTick).stats, rfl⟩

theorem State.levelsSet_clock (s : State) (q : Cue) (goTick : Int) : (s.levelsSet q goTick).clock = s.clock := by
  obtain ⟨k, m, alike⟩ := s.levelsSet_alike q goTick
  rw [alike]
  simp

/-- The end of a take: the GO recorded, the follow timer set, and the take counted (R76). -/
def State.goRecorded (s : State) (q : Cue) (n : Nat) (goTick carried : Int) : State :=
  (s.withPlay
    { s.play with
      lastGo := some { cueField := n, resolved := q.number, tick := carried },
      follow := q.follow.map fun ms => { tick := goTick + (ms : Nat), source := q.number } }).tallyPlay
        fun k => { k with gosTaken := sat k.gosTaken }

theorem State.goRecorded_alike (s : State) (q : Cue) (n : Nat) (goTick carried : Int) :
    MovesAlike s (s.goRecorded q n goTick carried) :=
  MovesAlike.tallyPlay ⟨(s.goRecorded q n goTick carried).play, s.stats, rfl⟩ _

theorem State.takeGo_without (s : State) (without : q.pos = none) (n : Nat) (goTick carried : Int) (isUnsynced : Bool) :
    s.takeGo q n goTick carried isUnsynced = (s.levelsSet q goTick).goRecorded q n goTick carried := by
  rw [State.takeGo, without]
  rfl

theorem State.takeGo_part (s : State) (pos : q.pos = some p) (n : Nat) (goTick carried : Int) (isUnsynced : Bool) :
    s.takeGo q n goTick carried isUnsynced =
      ((s.levelsSet q goTick).setPosition q p goTick isUnsynced).goRecorded q n goTick carried := by
  rw [State.takeGo, pos]
  rfl

/-- All that a taken GO makes of the position pair and of gathers (R76, R78, R101, R107). -/
theorem State.takeGo_positionTaken {isUnsynced : Bool} (may : mayGroup ↔ isUnsynced = false ∧ s.clock.synced = true)
    (n : Nat) (carried : Int) : PositionTaken s (s.takeGo q n goTick carried isUnsynced) q goTick mayGroup := by
  have levels := s.levelsSet_alike q goTick
  cases pos : q.pos with
  | none =>
    rw [s.takeGo_without pos]
    exact (State.endGatherForTake_positionTaken pos).congr (.refl s) (levels.trans (State.goRecorded_alike ..))
  | some p =>
    have ended : s.endGatherForTake q = s.cancelGather := by
      cases gather : s.play.gather <;> simp [State.endGatherForTake, State.cancelGather, gather, pos]
    rw [ended] at levels
    have free : (s.levelsSet q goTick).play.gather = none := by
      obtain ⟨k, m, alike⟩ := levels
      rw [alike, State.cancelGather_eq]
    have placed : PositionTaken (s.levelsSet q goTick) ((s.levelsSet q goTick).setPosition q p goTick isUnsynced) q
        goTick mayGroup :=
      State.setPosition_positionTaken pos free (by rwa [State.levelsSet_clock])
    rw [s.takeGo_part pos]
    exact (placed.congr levels (State.goRecorded_alike ..)).of_cancelGather pos

/-- A take in a state that a move does not tell from another makes of that one's position pair what it makes of its own,
and reaches no more (R76). -/
theorem State.takeGo_moves {isUnsynced : Bool} (alike : MovesAlike s u)
    (may : mayGroup ↔ isUnsynced = false ∧ s.clock.synced = true) (n : Nat) (carried : Int) :
    let t := u.takeGo q n goTick carried isUnsynced
    PositionTaken s t q goTick mayGroup ∧
      t = { s with
        play := t.play, stats := t.stats, outbox := t.outbox, ports := t.ports, longestWait := t.longestWait } := by
  intro t
  have clock : u.clock = s.clock := by
    obtain ⟨k, m, rfl⟩ := alike
    rfl
  have taken : PositionTaken u t q goTick mayGroup := State.takeGo_positionTaken (by rwa [clock]) n carried
  have frame : t = { u with
      play := t.play, stats := t.stats, outbox := t.outbox, ports := t.ports, longestWait := t.longestWait } :=
    u.takeGo_eq q n goTick carried isUnsynced
  clear_value t
  refine ⟨taken.congr alike (.refl t), ?_⟩
  obtain ⟨k, m, rfl⟩ := alike
  exact frame

/-- A GO that comes as a frame is taken in a state that a move does not tell from the one it arrived in (R72, R73). -/
theorem State.arrived_alike (s : State) (f : Frame) (count : PlayStats → PlayStats) :
    MovesAlike s ((s.heard f).arrived count) := by
  have heard : MovesAlike s { s.heard f with play := { s.play with pendingGo := none } } :=
    ⟨{ s.play with pendingGo := none }, (s.heard f).stats, by rw [← s.heard_stats_plan f]; rfl⟩
  rw [State.arrived_tally]
  exact heard.tallyPlay _

end

/-- Settles O31: each way takes its GO in a state that a move does not tell from the one found. -/
theorem goSetsPosition : Obligations.GoSetsPosition := by
  intro s q hold now synced frame
  have isSynced : s.clock.synced = true ↔ synced := Clock.synced_iff
  have may : synced ↔ false = false ∧ s.clock.synced = true := by rw [isSynced]; simp
  refine ⟨fun f taken => ?_, fun g pending reached resolves => ?_, fun g follow reached next => ?_⟩
  · intro n tick new resolves
    refine ⟨fun on reached => ?_, fun off => ?_⟩
    · exact ⟨_, exec_cueGo_synced hold taken new resolves (isSynced.mpr on) reached,
        State.takeGo_moves (s.arrived_alike f _) (iff_of_true trivial (may.mp on)) n tick⟩
    · exact ⟨_, exec_cueGo_unsynced hold taken new resolves (mt isSynced.mp off),
        State.takeGo_moves (s.arrived_alike f _) (by simp) n tick⟩
  · have alike : MovesAlike s (s.withPlay { s.play with pendingGo := none }) :=
      ⟨{ s.play with pendingGo := none }, s.stats, rfl⟩
    exact ⟨_, exec_pendingGoTick hold pending reached resolves, State.takeGo_moves alike may g.cueField g.tick⟩
  · have alike : MovesAlike s (s.withPlay { s.play with follow := none }) :=
      ⟨{ s.play with follow := none }, s.stats, rfl⟩
    exact ⟨_, exec_followTick hold follow reached next, State.takeGo_moves (alike.tallyPlay _) may q.number g.tick⟩

end Sys2Proof.Machine

/-! The speed of the axes: what bounds the velocity a boundary sets, what each axis operation leaves of mode, bridges
and requests before the setup record has been read, and every step's keeping of both (R93, R128, R132, R133, R140, R156,
R177). -/

namespace Sys2Proof.Machine

variable {s t : State}

/-! ### The start of the Feed Share Unit has not begun (R163, R173) -/

/-- A freed slot is what bridge enable waits for, once it waits (R173). -/
@[simp] theorem Feed.slotFreed_notStarted (f : Feed) :
    f.slotFreed.enabling = .notStarted ↔ f.enabling = .notStarted := by
  unfold Feed.slotFreed
  cases h : f.enabling <;> simp [h]

@[simp] theorem State.freeEntry_notStarted (s : State) (c : FrameClass) (n : Nat) :
    (s.freeEntry c n).feed.enabling = .notStarted ↔ s.feed.enabling = .notStarted := by
  unfold State.freeEntry
  cases c <;> simp

@[simp] theorem State.freeIfCovered_notStarted (s : State) (c : FrameClass) :
    (s.freeIfCovered c).feed.enabling = .notStarted ↔ s.feed.enabling = .notStarted := by
  unfold State.freeIfCovered
  (repeat' split) <;> simp

@[simp] theorem State.place_notStarted (s : State) (c : FrameClass) (dest : Byte) (payload : List Byte) :
    (s.place c dest payload).feed.enabling = .notStarted ↔ s.feed.enabling = .notStarted := by
  simp only [State.place]
  split <;> simp

@[simp] theorem State.withdraw_notStarted (s : State) (p : Port) (c : FrameClass) :
    (s.withdraw p c).feed.enabling = .notStarted ↔ s.feed.enabling = .notStarted := by
  simp [State.withdraw]

@[simp] theorem State.portDown_notStarted (s : State) (p : Port) :
    (s.portDown p).feed.enabling = .notStarted ↔ s.feed.enabling = .notStarted := by
  simp [State.portDown, FrameClass.byPriority]

@[simp] theorem State.ownSent_notStarted (s : State) (p : Port) :
    (s.ownSent p).feed.enabling = .notStarted ↔ s.feed.enabling = .notStarted := by
  simp only [State.ownSent, State.joinSent]
  (repeat' split) <;> simp

/-! ### What reaches no feed: takes, MATCH-NOTEs, BEACONs and replies (R49, R76, R119, R181) -/

/-- Only the freeing of a FEED-NOTE is anything to the Feed Share Unit (R20, R173). -/
theorem State.place_feed (s : State) {c : FrameClass} (other : c ≠ .feedNote) (dest : Byte) (payload : List Byte) :
    (s.place c dest payload).feed = s.feed := by
  simp only [State.place]
  split
  · rw [State.freeEntry_eq, if_neg fun h => other h.1]
    simp
  · simp

@[simp] theorem State.takeGo_feed (s : State) (q : Cue) (n : Nat) (x carried : Int) (u : Bool) :
    (s.takeGo q n x carried u).feed = s.feed := by
  rw [s.takeGo_eq]

@[simp] theorem State.go_feed (s : State) (n : Nat) (x carried : Int) (o : Nat) (u : Bool) :
    (s.go n x carried o u).feed = s.feed := by
  unfold State.go
  split <;> simp

@[simp] theorem State.takeCueGo_feed (s : State) (f : TickFields) (o : Nat) : (s.takeCueGo f o).feed = s.feed := by
  simp only [State.takeCueGo, State.syncedGo, State.unsyncedGo]
  (repeat' split) <;> simp

@[simp] theorem State.takePendingGo_feed (s : State) (g : PendingGo) : (s.takePendingGo g).feed = s.feed := by
  simp [State.takePendingGo]

@[simp] theorem State.takeFollow_feed (s : State) (f : FollowTimer) : (s.takeFollow f).feed = s.feed := by
  simp only [State.takeFollow]
  split <;> simp

@[simp] theorem State.sendMatchNote_feed (s : State) (owed : Bool) : (s.sendMatchNote owed).feed = s.feed := by
  obtain ⟨-, -, -, frame⟩ := s.sendMatchNote_spec owed
  rw [frame]

@[simp] theorem State.colourBoundary_feed (s : State) (b : Int) : (s.colourBoundary b).feed = s.feed := by
  simp only [State.colourBoundary, State.placeMatchNote]
  (repeat' split) <;> simp

@[simp] theorem State.placeBeacon_feed (s : State) : s.placeBeacon.feed = s.feed := by
  rw [s.placeBeacon_eq]
  simp

@[simp] theorem State.beaconTick_feed (s : State) : s.beaconTick.feed = s.feed := by
  simp [State.beaconTick]

/-- An ask leaves the feed alone, and the record read if it was (R180, R181). -/
@[simp] theorem State.takeStatusAsk_feed_readDone (s : State) (a : StatusAskFields) (o : Byte) :
    (s.takeStatusAsk a o).feed = s.feed ∧ (s.takeStatusAsk a o).setup.readDone = s.setup.readDone := by
  simp only [State.takeStatusAsk, State.applyFlags_eq]
  split
  · next p _ =>
    rw [State.reply_eq]
    cases p <;> exact ⟨rfl, rfl⟩
  · exact ⟨rfl, rfl⟩

/-! ### What a FEED-NOTE leaves of the start (R168 to R172) -/

@[simp] theorem State.resplit_enabling (s : State) : s.resplit.feed.enabling = s.feed.enabling := by
  simp only [State.resplit, Feed.split]
  (repeat' split) <;> simp

@[simp] theorem State.sendFeedNote_notStarted (s : State) (owed : Bool) :
    (s.sendFeedNote owed).feed.enabling = .notStarted ↔ s.feed.enabling = .notStarted := by
  simp only [State.sendFeedNote]
  (repeat' split) <;> simp

@[simp] theorem State.placeFeedNote_notStarted (s : State) :
    s.placeFeedNote.feed.enabling = .notStarted ↔ s.feed.enabling = .notStarted := by
  simp [State.placeFeedNote]

@[simp] theorem State.lowerClaim_notStarted (s : State) :
    s.lowerClaim.feed.enabling = .notStarted ↔ s.feed.enabling = .notStarted := by
  simp only [State.lowerClaim]
  (repeat' split) <;> simp

@[simp] theorem State.raiseClaim_notStarted (s : State) :
    s.raiseClaim.feed.enabling = .notStarted ↔ s.feed.enabling = .notStarted := by
  simp only [State.raiseClaim]
  (repeat' split) <;> simp

@[simp] theorem State.feedBoundary_notStarted (s : State) :
    s.feedBoundary.feed.enabling = .notStarted ↔ s.feed.enabling = .notStarted := by
  simp only [State.feedBoundary]
  (repeat' split) <;> simp [State.feedMeasured]

@[simp] theorem State.settle_notStarted (s : State) :
    s.settle.feed.enabling = .notStarted ↔ s.feed.enabling = .notStarted := by
  simp only [State.settle]
  (repeat' split) <;> simp

@[simp] theorem State.endTrip_notStarted (s : State) :
    s.endTrip.feed.enabling = .notStarted ↔ s.feed.enabling = .notStarted := by
  simp [State.endTrip]

@[simp] theorem State.scan_notStarted (s : State) (e d i : BitVec 12) :
    (s.scan e d i).feed.enabling = .notStarted ↔ s.feed.enabling = .notStarted := by
  simp only [State.scan, State.overcurrentReport, State.tripFeed]
  (repeat' split) <;> simp

/-! ### The invariant, axis by axis -/

/-- An axis is no faster than 16 × vmax, and until the record has been read it stands UNSURE with its bridges off and no
SLIP request. -/
def AxisState.Bounded (a : AxisState) (st : AxisSettings) (isRead : Bool) : Prop :=
  a.v16.natAbs ≤ 16 * st.vmax ∧
    (isRead = false → a.v16 = 0 ∧ a.mode = .unsure ∧ a.bridgeEnable = false ∧ a.request ≠ some .slip)

/-- Homing asks an axis for no more than its vmax (R147). -/
def Settings.HomesWithin (st : Settings) : Prop :=
  ∀ x, (st.axes.get x).homingSpeed ≤ (st.axes.get x).vmax

theorem speedHolds_iff :
    SpeedHolds s ↔ (∀ x, (s.axes.get x).Bounded (s.settings.axes.get x) s.setup.readDone) ∧ s.settings.HomesWithin ∧
      (s.setup.readDone = false → s.feed.enabling = .notStarted) := by
  constructor
  · intro h
    have homes : s.settings.HomesWithin := fun x => by
      obtain ⟨-, homes, -⟩ := h x
      exact homes
    refine ⟨fun x => ?_, homes, fun unread => ?_⟩
    · obtain ⟨speed, -, stands⟩ := h x
      refine ⟨speed, fun unread => ?_⟩
      obtain ⟨v, mode, bridges, request, -⟩ := stands unread
      exact ⟨v, mode, bridges, request⟩
    · obtain ⟨-, -, stands⟩ := h .pan
      obtain ⟨-, -, -, -, enabling⟩ := stands unread
      exact enabling
  · rintro ⟨bounded, homes, start⟩ x
    obtain ⟨speed, stands⟩ := bounded x
    refine ⟨speed, homes x, fun unread => ?_⟩
    obtain ⟨v, mode, bridges, request⟩ := stands unread
    exact ⟨v, mode, bridges, request, start unread⟩

theorem SpeedHolds.bounded (h : SpeedHolds s) (x : Axis) :
    (s.axes.get x).Bounded (s.settings.axes.get x) s.setup.readDone :=
  (speedHolds_iff.mp h).1 x

/-- What leaves the axes, the settings and the read alone, and starts nothing, keeps the bound. -/
theorem SpeedHolds.of_same (h : SpeedHolds s)
    (same : t.axes = s.axes ∧ t.settings = s.settings ∧ t.setup.readDone = s.setup.readDone ∧
      (t.feed.enabling = .notStarted ↔ s.feed.enabling = .notStarted)) : SpeedHolds t := by
  obtain ⟨axes, settings, read, start⟩ := same
  rw [speedHolds_iff] at h ⊢
  rwa [axes, settings, read, start]

/-- What gives one axis a state within the bound keeps it, the rest being as it was. -/
theorem SpeedHolds.of_axis (h : SpeedHolds s) {x : Axis} {a : AxisState} (axes : t.axes = s.axes.set x a)
    (same : t.settings = s.settings ∧ t.setup.readDone = s.setup.readDone ∧
      (t.feed.enabling = .notStarted ↔ s.feed.enabling = .notStarted))
    (bounded : a.Bounded (s.settings.axes.get x) s.setup.readDone) : SpeedHolds t := by
  obtain ⟨settings, read, start⟩ := same
  obtain ⟨others, rest⟩ := speedHolds_iff.mp h
  rw [speedHolds_iff, axes, settings, read, start]
  refine ⟨fun y => ?_, rest⟩
  by_cases same : y = x
  · subst same
    simpa using bounded
  · simpa [same] using others y

theorem SpeedHolds.withAxis (h : SpeedHolds s) {x : Axis} {a : AxisState}
    (bounded : a.Bounded (s.settings.axes.get x) s.setup.readDone) : SpeedHolds (s.withAxis x a) :=
  h.of_axis rfl ⟨rfl, rfl, Iff.rfl⟩ bounded

section

variable {a b : AxisState} {st : AxisSettings} {isRead : Bool}

/-- The bound speaks of speed, mode, bridge enable and request alone. -/
theorem AxisState.Bounded.congr (h : a.Bounded st isRead)
    (same : b.v16 = a.v16 ∧ b.mode = a.mode ∧ b.bridgeEnable = a.bridgeEnable ∧ b.request = a.request) :
    b.Bounded st isRead := by
  obtain ⟨v, mode, bridges, request⟩ := same
  unfold AxisState.Bounded at *
  rwa [v, mode, bridges, request]

/-- Once the record has been read, the speed is all the bound speaks of. -/
theorem AxisState.Bounded.of_read (h : a.Bounded st isRead) (read : isRead = true) (v : b.v16 = a.v16) :
    b.Bounded st isRead := by
  obtain ⟨speed, -⟩ := h
  exact ⟨v ▸ speed, fun unread => by rw [read] at unread; cases unread⟩

/-- An axis that moves has had its record read. -/
theorem AxisState.Bounded.read_of_moving (h : a.Bounded st isRead) (moving : a.v16 ≠ 0) : isRead = true := by
  obtain ⟨-, stands⟩ := h
  exact Bool.of_not_eq_false fun unread => moving (stands unread).1

/-- An axis with bridge enable set has had its record read. -/
theorem AxisState.Bounded.read_of_enabled (h : a.Bounded st isRead) (enabled : a.bridgeEnable = true) :
    isRead = true := by
  obtain ⟨-, stands⟩ := h
  refine Bool.of_not_eq_false fun unread => ?_
  obtain ⟨-, -, bridges, -⟩ := stands unread
  rw [enabled] at bridges
  cases bridges

/-! ### A boundary's velocity and mode (R132, R133, R152 to R156) -/

/-- The follow limiter asks for no more than 16 × vmax (R132). -/
theorem followVelocity_natAbs_le (aEff : Nat) (setpoint pos16 : Int) {vmax : Nat} {v16 : Int}
    (speed : v16.natAbs ≤ 16 * vmax) : (followVelocity vmax aEff setpoint pos16 v16).natAbs ≤ 16 * vmax := by
  unfold followVelocity
  extract_lets e bound
  have capped : bound ≤ (16 * vmax : Nat) := Int.ofNat_le.mpr (Nat.min_le_left _ _)
  have held : -bound ≤ clampInt (-bound) bound e ∧ clampInt (-bound) bound e ≤ bound :=
    clampInt_bounds (by omega) e
  obtain ⟨-, -, within⟩ := toward_bounds aEff v16 (clampInt (-bound) bound e)
  omega

/-- No mode asks an axis for more than 16 × vmax (R129, R132, R133, R155). -/
theorem AxisState.boundaryVelocity_natAbs_le (aEff : Nat) (setpoint : Int) (speed : a.v16.natAbs ≤ 16 * st.vmax)
    (homes : st.homingSpeed ≤ st.vmax) : (a.boundaryVelocity st aEff setpoint).natAbs ≤ 16 * st.vmax := by
  have aims : ∀ aim : Int, aim.natAbs ≤ 16 * st.vmax → (toward aEff a.v16 aim).natAbs ≤ 16 * st.vmax := by
    intro aim small
    obtain ⟨-, -, within⟩ := toward_bounds aEff a.v16 aim
    omega
  unfold AxisState.boundaryVelocity
  split
  case h_1 => exact followVelocity_natAbs_le aEff setpoint a.pos16 speed
  case h_2 => exact followVelocity_natAbs_le aEff setpoint a.pos16 speed
  case h_5 => split <;> exact aims _ (by omega)
  all_goals exact aims _ (by omega)

/-- What a boundary does to the mode leaves the velocity alone (R152 to R159). -/
@[simp] theorem AxisState.applyEvent_v16 (a : AxisState) (st : AxisSettings) (e : AxisEvent) :
    (a.applyEvent st e).v16 = a.v16 := by
  cases e <;> rfl

/-- Lag, current, walk and preloads leave velocity, mode, bridge enable and request alone (R134 to R138). -/
theorem AxisState.finishBoundary_frame (a : AxisState) (st : AxisSettings) (row : AxisMode) (fades : Bool)
    (e : AxisEvent) (setpoint : Int) (grant : Nat) :
    let b := a.finishBoundary st row fades e setpoint grant
    b.v16 = a.v16 ∧ b.mode = a.mode ∧ b.bridgeEnable = a.bridgeEnable ∧ b.request = a.request := by
  rw [AxisState.finishBoundary_eq]
  exact ⟨rfl, rfl, rfl, rfl⟩

/-- An UNSURE axis has no event at a boundary (R129). -/
theorem AxisState.eventAt_of_unsure (unsure : a.mode = .unsure) (x : Axis) (setpoint : Int) :
    a.eventAt x setpoint = .nothing := by
  simp only [AxisState.eventAt, unsure]

/-- An UNSURE axis that stands stays so (R133). -/
theorem AxisState.boundaryVelocity_of_unsure (unsure : a.mode = .unsure) (stands : a.v16 = 0) (aEff : Nat)
    (setpoint : Int) : a.boundaryVelocity st aEff setpoint = 0 := by
  simp only [AxisState.boundaryVelocity, unsure, stands, toward_eq]
  omega

/-- The axis a boundary leaves, before lag, current, walk and preloads: moved, its event applied, and homing begun where
a SLIP request may (R131, R153). -/
def State.axisTurned (s : State) (x : Axis) (b : Int) : AxisState :=
  let st := s.settings.axes.get x
  let moved := s.axisMoved x b
  let a1 := moved.applyEvent st (moved.eventAt x (s.positionAt x b))
  if a1.slipRequestTaken st (s.intensityAt b) then a1.beginHoming else a1

theorem State.axisTurned_v16 (s : State) (x : Axis) (b : Int) : (s.axisTurned x b).v16 = (s.axisMoved x b).v16 := by
  unfold State.axisTurned
  extract_lets st moved a1
  have kept : a1.v16 = moved.v16 := AxisState.applyEvent_v16 ..
  split
  · exact kept
  · exact kept

/-- An axis that stands UNSURE without a SLIP request is turned to nothing. -/
theorem State.axisTurned_of_unsure {x : Axis} (unsure : (s.axes.get x).mode = .unsure)
    (request : (s.axes.get x).request ≠ some .slip) (b : Int) : s.axisTurned x b = s.axisMoved x b := by
  have event : (s.axisMoved x b).eventAt x (s.positionAt x b) = .nothing :=
    AxisState.eventAt_of_unsure (a := s.axisMoved x b) unsure ..
  have noSlip : (s.axisMoved x b).slipRequestTaken (s.settings.axes.get x) (s.intensityAt b) = false := by
    have : (s.axisMoved x b).request ≠ some .slip := request
    simp [AxisState.slipRequestTaken, this]
  simp only [State.axisTurned, event, AxisState.applyEvent, noSlip]
  rfl

theorem SpeedHolds.axisTurned (h : SpeedHolds s) (x : Axis) (b : Int) :
    (s.axisTurned x b).Bounded (s.settings.axes.get x) s.setup.readDone := by
  obtain ⟨-, homes, -⟩ := speedHolds_iff.mp h
  obtain ⟨speed, stands⟩ := h.bounded x
  refine ⟨?_, fun unread => ?_⟩
  · rw [State.axisTurned_v16]
    exact AxisState.boundaryVelocity_natAbs_le _ _ speed (homes x)
  · obtain ⟨v, unsure, bridges, request⟩ := stands unread
    rw [State.axisTurned_of_unsure unsure request]
    exact ⟨AxisState.boundaryVelocity_of_unsure unsure v _ _, unsure, bridges, request⟩

end

/-- The axes after a boundary of an axis driver: lag, current, walk and preloads come last (R131). -/
theorem State.axisBoundary_axes (s : State) (x : Axis) (b : Int) :
    let event := (s.axisMoved x b).eventAt x (s.positionAt x b)
    let row := if event = .countSet then .homing .set else (s.axisTurned x b).mode
    (s.axisBoundary x b).axes = s.axes.set x
      ((s.axisTurned x b).finishBoundary (s.settings.axes.get x) row (decide (s.play.pos.timing.state = .fade)) event
        (s.positionAt x b) (s.feed.grant.get x)) := by
  simp only [State.axisBoundary, apply_ite State.axes, State.douse_frame, ite_self, State.tallyAxis_axes,
    State.withAxis_axes, State.withMarks_axes]
  rfl

/-- A boundary of an axis driver keeps the bound (R131). -/
theorem SpeedHolds.axisBoundary (h : SpeedHolds s) (x : Axis) (b : Int) : SpeedHolds (s.axisBoundary x b) := by
  refine h.of_axis (s.axisBoundary_axes x b) (by simp) ?_
  exact (h.axisTurned x b).congr (AxisState.finishBoundary_frame ..)

/-! ### Homing begun, trips, periods and edges (R138, R140, R148, R154) -/

/-- Homing begins for an axis whose record has been read (R154). -/
theorem SpeedHolds.beginHoming (h : SpeedHolds s) (read : s.setup.readDone = true) (x : Axis) :
    SpeedHolds (s.beginHoming x) := by
  have axes : (s.beginHoming x).axes = s.axes.set x ((s.axes.get x).beginHoming.rewrite (s.settings.axes.get x)) := by
    simp [State.beginHoming]
  exact h.of_axis axes (by simp) ((h.bounded x).of_read read rfl)

/-- An axis trips only with its bridges driven (R140). -/
theorem SpeedHolds.overcurrent (h : SpeedHolds s) (x : Axis) : SpeedHolds (s.overcurrent x) := by
  unfold State.overcurrent
  split
  · next driven =>
    have enabled : (s.axes.get x).bridgeEnable = true := by
      rw [AxisState.driven, Bool.and_eq_true] at driven
      exact driven.left
    refine h.of_axis (x := x) rfl (by simp) ?_
    exact (h.bounded x).of_read ((h.bounded x).read_of_enabled enabled) rfl
  · exact h

/-- A bridge period moves the walk on and no more (R136, R138). -/
theorem AxisState.period_frame (a : AxisState) (st : AxisSettings) :
    (a.period st).v16 = a.v16 ∧ (a.period st).mode = a.mode ∧ (a.period st).bridgeEnable = a.bridgeEnable ∧
      (a.period st).request = a.request := by
  unfold AxisState.period AxisState.walkOn
  extract_lets a1
  split <;> exact ⟨rfl, rfl, rfl, rfl⟩

theorem SpeedHolds.bridgePeriod (h : SpeedHolds s) : SpeedHolds s.bridgePeriod := by
  have pan := (h.bounded .pan).congr (AxisState.period_frame _ s.settings.axes.pan)
  have tilt := (h.bounded .tilt).congr (AxisState.period_frame _ s.settings.axes.tilt)
  exact ((h.withAxis pan).withAxis tilt).of_same ⟨rfl, rfl, rfl, Iff.rfl⟩

/-- Whatever its mode makes of an edge, the axis keeps its velocity (R148 to R151, R155). -/
theorem AxisState.edge_v16 (a : AxisState) (st : AxisSettings) (c : Capture) : (a.edge st c).axis.v16 = a.v16 := by
  have judged : ∀ d, (a.judge st d).axis.v16 = a.v16 := by
    intro d
    unfold AxisState.judge
    split <;> rfl
  have checked : (a.check st c).axis.v16 = a.v16 := by
    unfold AxisState.check
    split
    · rfl
    · split
      · split
        · exact judged _
        · rfl
      · exact judged _
    · exact judged _
  have phase : ∀ p, (a.phaseEdge p c).v16 = a.v16 := by
    intro p
    unfold AxisState.phaseEdge
    (repeat' split) <;> rfl
  unfold AxisState.edge
  extract_lets check ignored
  have either : check.axis.v16 = a.v16 := by
    unfold check
    split
    · rfl
    · exact checked
  split
  case h_1 => exact either
  case h_2 => exact either
  case h_3 => exact phase _
  case h_4 => exact phase _
  case h_5 => exact phase _
  all_goals rfl

/-- An edge is handled only where the axis moves (R148). -/
theorem SpeedHolds.indexEdge (h : SpeedHolds s) (x : Axis) (e : Edge) : SpeedHolds (s.indexEdge x e) := by
  simp only [State.indexEdge]
  split
  · exact h.of_same (by simp)
  · next moving =>
    refine h.of_axis (x := x) rfl (by simp) ?_
    exact (h.bounded x).of_read ((h.bounded x).read_of_moving moving) (AxisState.edge_v16 ..)

/-- A HOME-ASK of one axis begins homing with bridge enable set, or leaves an ASK request (R157). -/
theorem SpeedHolds.askAxis (h : SpeedHolds s) (x : Axis) : SpeedHolds (s.askAxis x) := by
  unfold State.askAxis
  extract_lets a
  split
  · exact h.of_same (by simp)
  split
  · next enabled => exact h.beginHoming ((h.bounded x).read_of_enabled enabled) x
  split
  · obtain ⟨speed, stands⟩ := h.bounded x
    refine h.withAxis ⟨speed, fun unread => ?_⟩
    obtain ⟨v, mode, bridges, -⟩ := stands unread
    exact ⟨v, mode, bridges, nofun⟩
  · exact h

theorem SpeedHolds.takeHomeAsk (h : SpeedHolds s) (payload : List Byte) : SpeedHolds (s.takeHomeAsk payload) := by
  unfold State.takeHomeAsk
  extract_lets s1
  have pan : SpeedHolds s1 := by
    unfold s1
    split
    · exact h.askAxis .pan
    · exact h
  split
  · exact pan.askAxis .tilt
  · exact pan

/-! ### Bridge enable, the read of the record, and a reset (R173, R177, R183) -/

theorem SpeedHolds.enableAxis (h : SpeedHolds s) (read : s.setup.readDone = true) (x : Axis) :
    SpeedHolds (s.enableAxis x) :=
  h.withAxis ((h.bounded x).of_read read rfl)

theorem SpeedHolds.homeOnEnable (h : SpeedHolds s) (read : s.setup.readDone = true) (x : Axis) :
    SpeedHolds (s.homeOnEnable x) := by
  unfold State.homeOnEnable
  split
  · exact h.beginHoming read x
  · exact h.beginHoming read x
  · exact h
  · exact h

/-- Bridge enable is due only once the feed has started, and so the record been read (R173). -/
theorem SpeedHolds.enableBridges (h : SpeedHolds s) (due : s.feed.enabling = .due) : SpeedHolds s.enableBridges := by
  obtain ⟨bounded, homes, start⟩ := speedHolds_iff.mp h
  have read : s.setup.readDone = true := Bool.of_not_eq_false fun unread => by
    rw [start unread] at due
    cases due
  have begun : SpeedHolds (s.withFeed { s.feed with enabling := .done }) :=
    speedHolds_iff.mpr ⟨bounded, homes, fun unread => by
      rw [State.withFeed_setup, read] at unread
      cases unread⟩
  have both := (begun.enableAxis read .pan).enableAxis read .tilt
  exact (both.homeOnEnable (by simpa using read) .pan).homeOnEnable (by simpa using read) .tilt

/-- The settings in force from the read on keep the homing speed within vmax (R147). -/
theorem State.settingsAtRead_homesWithin (s : State) : s.settingsAtRead.HomesWithin := by
  intro x
  unfold State.settingsAtRead
  split
  · obtain ⟨-, within⟩ := clampNat_bounds (lo := 1) (hi := max 1 (s.recordField (axisPage x) 0 1))
      (Nat.le_max_left ..) (s.recordField (axisPage x) 23 1)
    cases x <;> exact within
  · cases x <;> decide

/-- The read completes with both axes standing (R177). -/
theorem SpeedHolds.completeRead (h : SpeedHolds s) (due : s.readDue = true) : SpeedHolds s.completeRead := by
  have unread : s.setup.readDone = false := by
    simp only [State.readDue, Bool.and_eq_true, Bool.not_eq_true'] at due
    obtain ⟨⟨unread, -⟩, -⟩ := due
    exact unread
  have read : s.completeRead.setup.readDone = true := by
    simp only [State.completeRead]
    split <;> simp [State.configure]
  have settings : s.completeRead.settings = s.settingsAtRead := by
    simp only [State.completeRead]
    split <;> simp [State.configure]
  refine speedHolds_iff.mpr ⟨fun x => ?_, ?_, fun again => ?_⟩
  · obtain ⟨-, stands⟩ := h.bounded x
    obtain ⟨v, -⟩ := stands unread
    refine ⟨by simp [v], fun again => ?_⟩
    rw [read] at again
    cases again
  · rw [settings]
    exact s.settingsAtRead_homesWithin
  · rw [read] at again
    cases again

theorem speedHolds_deviceReset (s : State) : SpeedHolds s.deviceReset :=
  reset_speedHolds

/-! ### Every command -/

/-- A timed event, where its test lets it act, keeps what its effect keeps (log 3). -/
theorem ensures_whenDue {p : State → Prop} {b : Prop} [Decidable b] (before : p s) (after : b → p t) :
    Ensures (.next (if b then t else s)) p := by
  rintro u ⟨⟩
  split
  · next due => exact after due
  · exact before

/-- A boundary that a consumer has yet to take: its effect, or none (R50). -/
theorem ensures_boundary {p : State → Prop} {g : Int → State} (before : p s) (bs : List Int) (after : ∀ b, p (g b)) :
    Ensures (match bs with
      | b :: _ => .next (g b)
      | [] => .next s) p := by
  cases bs with
  | nil => rintro u ⟨⟩; exact before
  | cons b rest => rintro u ⟨⟩; exact after b

theorem SpeedHolds.unchanged (h : SpeedHolds s) : Ensures (.next s) SpeedHolds := by
  rintro t ⟨⟩
  exact h

theorem SpeedHolds.whenSame (h : SpeedHolds s) {due : Prop} [Decidable due]
    (same : t.axes = s.axes ∧ t.settings = s.settings ∧ t.setup.readDone = s.setup.readDone ∧
      (t.feed.enabling = .notStarted ↔ s.feed.enabling = .notStarted)) :
    Ensures (.next (if due then t else s)) SpeedHolds :=
  ensures_whenDue h fun _ => h.of_same same

theorem SpeedHolds.handOn (h : SpeedHolds s) {k : FrameKind} {f : Frame} {g : State → State}
    (taken : SpeedHolds (s.heard f) → SpeedHolds (g (s.heard f))) : SpeedHolds (s.handOn k f g) :=
  handOn_keeps h (fun _ _ _ h => h.of_same (by simp)) fun _ _ => taken

/-- A HOME-ASK begins homing, a RESTART resets, and no other frame reaches an axis (R10). -/
theorem SpeedHolds.consume (h : SpeedHolds s) (k : FrameKind) (f : Frame) : SpeedHolds (s.consume (some k) f) := by
  cases k with
  | homeAsk => exact h.handOn fun h => h.takeHomeAsk _
  | restart => exact h.handOn fun _ => speedHolds_deviceReset _
  | statusReply => exact h.handOn id
  | beacon | moveNote | matchNote | feedNote | cueLoad | cueGo | cueRelease | cueClear | protect | statusAsk | setup =>
    exact h.handOn fun h => h.of_same (by simp)

/-- Every command that neither carries a frame nor closes one: the axes' own, bridge enable, the read and the resets
reach what the bound speaks of, and no other. -/
theorem exec_ownStep_keeps_speedHolds (c : Instr) (s : State) (own : isOwnStep c) (h : SpeedHolds s) :
    Ensures (exec c s) SpeedHolds := by
  obtain ⟨noFrame, noClose⟩ := own
  cases c with
  | axisBoundary x => exact ensures_boundary h _ (h.axisBoundary x)
  | bridgePwmPeriod => exact ensures_whenDue h fun _ => h.bridgePeriod
  | overcurrentEvent x c => rintro t ⟨⟩; exact h.overcurrent x
  | indexEdge x e => rintro t ⟨⟩; exact h.indexEdge x e
  | bridgeEnable => exact ensures_whenDue h h.enableBridges
  | setupReadComplete => exact ensures_whenDue h h.completeRead
  | resetLine | powerOn | resetLineHeld => rintro t ⟨⟩; exact speedHolds_deviceReset _
  | frameClose p => exact absurd rfl (noClose p)
  | beacon f => exact absurd rfl (noFrame .beacon f)
  | feedNote f => exact absurd rfl (noFrame .feedNote f)
  | matchNote f => exact absurd rfl (noFrame .matchNote f)
  | statusReply f => exact absurd rfl (noFrame .statusReply f)
  | cueLoad f => exact absurd rfl (noFrame .cueLoad f)
  | cueClear f => exact absurd rfl (noFrame .cueClear f)
  | protect f => exact absurd rfl (noFrame .protect f)
  | cueGo f => exact absurd rfl (noFrame .cueGo f)
  | cueRelease f => exact absurd rfl (noFrame .cueRelease f)
  | moveNote f => exact absurd rfl (noFrame .moveNote f)
  | homeAsk f => exact absurd rfl (noFrame .homeAsk f)
  | setup f => exact absurd rfl (noFrame .setup f)
  | statusAsk f => exact absurd rfl (noFrame .statusAsk f)
  | restart f => exact absurd rfl (noFrame .restart f)
  | characterReceived p c b | portSilenceTimeout p | choicePoint p | relayedFrameSent p | ownFrameSent p =>
    exact h.whenSame (by simp)
  | catchUpSlew | holdoverEntry | holdoverToFree | seekToFree | beaconTimer => exact h.whenSame (by simp)
  | nextMatchTime | emitterPwmPeriod | settleEnd | tripEnd | nextNoteTime => exact h.whenSame (by simp)
  | senseScan e d f => exact h.whenSame (by simp)
  | peerAgeOut n | feedPartLapse n | matchPartLapse n =>
    simp only [exec, execPeerAgeOut, execFeedPartLapse, execMatchPartLapse]
    split
    · exact h.whenSame (by simp)
    · exact h.unchanged
  | pendingGoTick | followTick | gatherClose | earlyNoteLapse n =>
    simp only [exec, execPendingGoTick, execFollowTick, execGatherClose, execEarlyNoteLapse]
    split
    · exact h.whenSame (by simp)
    · exact h.unchanged
  | darkStart | colourBoundary => exact ensures_boundary h _ fun b => h.of_same (by simp)
  | laneTick g => rintro t ⟨⟩; exact h.of_same (by simp)
  | feedBoundary =>
    rintro t ⟨⟩
    split
    · exact h
    · exact h.of_same (by simp)

/-- Settles O47: a boundary brings the velocity toward an aim within 16 × vmax, and before the record has been read
nothing moves an axis, drives its bridges or asks it to home by a SLIP. -/
theorem speedLimitKept : Obligations.SpeedLimitKept :=
  keptByStep_of (fun _ _ h => h.of_same (by simp)) (fun _ h => h.of_same (by simp))
    (commands_keep (fun k f _ h => h.consume k f) (fun _ _ h => h.of_same (by simp)) (fun _ _ h => h.of_same (by simp))
      (fun _ _ h => h.of_same (by simp)) (fun _ _ h => h.of_same (by simp)) (fun _ _ _ h => h.of_same (by simp))
      exec_ownStep_keeps_speedHolds)

end Sys2Proof.Machine

/-! What a gather's close leaves: its lanes, its finished record and its counters (R97, R105, R106, R109). -/

namespace Sys2Proof.Machine

variable {s : State} {g : Gather}

/-- The counters of move planning after a close: the close itself, and what its plan and group end show (R97, R109). -/
theorem State.closeGather_planCounts (s : State) (g : Gather) :
    (s.closeGather g).stats.plan =
      { s.stats.plan with
        stretched :=
          if (s.closePlan g).stretched then s.counter s.stats.plan.stretched else s.stats.plan.stretched,
        gathersClosed := s.counter s.stats.plan.gathersClosed,
        gathersLengthened :=
          if g.ownPlan < (s.closePlan g).length then s.counter s.stats.plan.gathersLengthened
          else s.stats.plan.gathersLengthened,
        gathersCapped :=
          if g.latestEnd < g.groupEnd then s.counter s.stats.plan.gathersCapped
          else s.stats.plan.gathersCapped } := by
  cases counting : s.setup.counting <;> cases stretched : (s.closePlan g).stretched <;>
    simp [State.closeGather, State.finishGather, State.countStretched, State.counter, sat, counting, stretched]

theorem exec_gatherClose (isOpen : s.play.gather = some g) (reached : g.closeTick ≤ s.showTick) :
    exec .gatherClose s = .next (s.closeGather g) := by
  simp only [exec, execGatherClose, isOpen, if_pos reached]

/-- Settles O35: the close in its three parts, lanes and record, counters, and all that stays. -/
theorem gatherCloses : Obligations.GatherCloses := by
  intro s g isOpen reached now longest ends plan
  refine ⟨s.closeGather g, exec_gatherClose isOpen reached, s.closeGather_play g, s.closeGather_planCounts g, ?_⟩
  ext1 <;> simp

end Sys2Proof.Machine

/-! What becomes of a MOVE-NOTE: the open gather it raises, the finished one it is late for, the early notes it raises
or joins, and the one a full table gives up; and the lapse of an early note (R103, R104, R106, R109). -/

namespace Sys2Proof.Machine

/-! ### Matching (R103) -/

theorem Gather.matchesNote_iff {g : Gather} {group cue : Nat} {tick : Int} :
    g.matchesNote group cue tick = true ↔ g.group = group ∧ g.cue = cue ∧ Within20 tick g.goTick := by
  simp [Gather.matchesNote, ticksAgree_iff, and_assoc]

theorem FinishedGather.matchesNote_iff {g : FinishedGather} {group cue : Nat} {tick : Int} :
    g.matchesNote group cue tick = true ↔ g.group = group ∧ g.cue = cue ∧ Within20 tick g.goTick := by
  simp [FinishedGather.matchesNote, ticksAgree_iff, and_assoc]

/-! ### The entry a full table gives up (R104) -/

theorem EarlyNote.goesBefore_iff {x y : EarlyNote} :
    x.goesBefore y = true ↔
      x.setAt < y.setAt ∨ (x.setAt = y.setAt ∧ (x.group < y.group ∨ (x.group = y.group ∧ x.cue < y.cue))) := by
  unfold EarlyNote.goesBefore
  (repeat' split) <;> simp only [decide_eq_true_eq] <;> omega

theorem EarlyNote.not_goesBefore_self (x : EarlyNote) : ¬ x.goesBefore x = true := by
  rw [EarlyNote.goesBefore_iff]
  omega

theorem earliestNote_mem {ns : List EarlyNote} {m : EarlyNote} (h : earliestNote ns = some m) : m ∈ ns := by
  induction ns generalizing m with
  | nil => cases h
  | cons n rest ih =>
    unfold earliestNote at h
    split at h
    · cases h
      exact List.mem_cons_self
    · next k found =>
      split at h <;> cases h
      · exact List.mem_cons_of_mem n (ih found)
      · exact List.mem_cons_self

/-- An entry that no later one goes before is the one a table beginning with it gives up. -/
theorem earliestNote_cons {m : EarlyNote} {ys : List EarlyNote} (later : ∀ k ∈ ys, ¬ k.goesBefore m = true) :
    earliestNote (m :: ys) = some m := by
  unfold earliestNote
  split
  · rfl
  · next k found => exact if_neg (later k (earliestNote_mem found))

/-- The entry given up goes before all that stand ahead of it, and none behind goes before it. -/
theorem earliestNote_append {xs ys : List EarlyNote} {m : EarlyNote} (ahead : ∀ k ∈ xs, m.goesBefore k = true)
    (later : ∀ k ∈ ys, ¬ k.goesBefore m = true) : earliestNote (xs ++ m :: ys) = some m := by
  induction xs with
  | nil => exact earliestNote_cons later
  | cons x xs ih =>
    have rest := ih fun k hk => ahead k (List.mem_cons_of_mem x hk)
    simp only [List.cons_append, earliestNote, rest, if_pos (ahead x List.mem_cons_self)]

theorem dropEarliest_append {xs ys : List EarlyNote} {m : EarlyNote} (ahead : ∀ k ∈ xs, m.goesBefore k = true)
    (later : ∀ k ∈ ys, ¬ k.goesBefore m = true) : dropEarliest (xs ++ m :: ys) = xs ++ ys := by
  have absent : m ∉ xs := fun mem => m.not_goesBefore_self (ahead m mem)
  simp [dropEarliest, earliestNote_append ahead later, List.erase_append_right _ absent]

/-! ### A note in the early note table (R103, R104) -/

section

variable {s : State} {m : MoveNoteFields}

/-- The entry a note makes (R104). -/
def State.entryOf (s : State) (m : MoveNoteFields) : EarlyNote :=
  { group := m.group, cue := m.cue, goTick := (m.goTick : Nat), proposedEnd := (m.proposedEnd : Nat),
    setAt := s.uptime }

/-- A note matches an entry (R103). -/
def MoveNoteFields.hits (m : MoveNoteFields) (n : EarlyNote) : Prop :=
  n.group = m.group ∧ n.cue = m.cue ∧ Within20 (m.goTick : Nat) n.goTick

theorem MoveNoteFields.hits_iff {n : EarlyNote} : n.agrees m.group m.cue (m.goTick : Nat) = true ↔ m.hits n :=
  EarlyNote.agrees_iff

theorem any_agrees_iff {ns : List EarlyNote} :
    (ns.any fun n => n.agrees m.group m.cue (m.goTick : Nat)) = true ↔ ∃ n ∈ ns, m.hits n := by
  simp only [List.any_eq_true, MoveNoteFields.hits_iff]

/-- A note raises each entry it matches. -/
theorem State.keepEarly_raises (hit : ∃ n ∈ s.play.early, m.hits n) {raised : List EarlyNote}
    (length : raised.length = s.play.early.length)
    (each : ∀ (i : Nat) (n k : EarlyNote), s.play.early[i]? = some n → raised[i]? = some k →
      (m.hits n → k = { n with proposedEnd := max n.proposedEnd (m.proposedEnd : Nat) }) ∧ (¬ m.hits n → k = n)) :
    s.keepEarly m = s.withPlay { s.play with early := raised } := by
  have same : (s.play.early.map fun n =>
      if n.agrees m.group m.cue (m.goTick : Nat) then
        { n with proposedEnd := max n.proposedEnd (m.proposedEnd : Nat) } else n) = raised := by
    refine List.ext_getElem (by simp [length]) fun i h h' => ?_
    have inside : i < s.play.early.length := by simpa using h
    obtain ⟨matched, other⟩ := each i _ _ (List.getElem?_eq_getElem inside) (List.getElem?_eq_getElem h')
    rw [List.getElem_map]
    split
    · next agrees => exact (matched (MoveNoteFields.hits_iff.mp agrees)).symm
    · next differs => exact (other (mt MoveNoteFields.hits_iff.mpr differs)).symm
  simp only [State.keepEarly, if_pos (any_agrees_iff.mpr hit), same]

theorem State.keepEarly_joins (miss : ¬ ∃ n ∈ s.play.early, m.hits n) (room : s.play.early.length < 4) :
    s.keepEarly m =
      (s.withPlay { s.play with early := s.play.early ++ [s.entryOf m] }).tallyPlan
        fun k => { k with earlyNotes := sat k.earlyNotes } := by
  simp only [State.keepEarly, if_neg (mt any_agrees_iff.mp miss), if_pos room]
  rfl

theorem State.keepEarly_replaces (miss : ¬ ∃ n ∈ s.play.early, m.hits n) (full : ¬ s.play.early.length < 4) :
    s.keepEarly m =
      (s.withPlay { s.play with early := dropEarliest s.play.early ++ [s.entryOf m] }).tallyPlan
        fun k => { k with earlyNotes := sat k.earlyNotes, earlyNotesLost := sat k.earlyNotesLost } := by
  simp only [State.keepEarly, if_neg (mt any_agrees_iff.mp miss), if_neg full]
  rfl

/-! ### A note by the gather it belongs to (R103, R106) -/

/-- A note of the open gather. -/
def State.OfGather (s : State) (m : MoveNoteFields) : Prop :=
  ∃ g, s.play.gather = some g ∧ g.group = m.group ∧ g.cue = m.cue ∧ Within20 (m.goTick : Nat) g.goTick

/-- A note of the finished gather. -/
def State.OfFinished (s : State) (m : MoveNoteFields) : Prop :=
  ∃ g, s.play.finished = some g ∧ g.group = m.group ∧ g.cue = m.cue ∧ Within20 (m.goTick : Nat) g.goTick

theorem State.takeMoveNote_ignored (outside : m.group = 0 ∨ 15 < m.group) : s.takeMoveNote m = s :=
  if_pos outside

variable (atLeast : 1 ≤ m.group) (atMost : m.group ≤ 15)

include atLeast atMost in
theorem State.takeMoveNote_ofGather {g : Gather} (isOpen : s.play.gather = some g)
    (hit : g.group = m.group ∧ g.cue = m.cue ∧ Within20 (m.goTick : Nat) g.goTick) :
    s.takeMoveNote m =
      (s.withPlay { s.play with gather := some (g.hear (m.proposedEnd : Nat)) }).tallyPlan
        fun k => { k with notesMatched := sat k.notesMatched } := by
  have found : (s.play.gather.filter fun g => g.matchesNote m.group m.cue (m.goTick : Nat)) = some g := by
    rw [isOpen, Option.filter_some, if_pos (Gather.matchesNote_iff.mpr hit)]
  have inside : ¬ (m.group = 0 ∨ 15 < m.group) := by omega
  simp only [State.takeMoveNote, if_neg inside, found]

include atLeast atMost in
/-- A note that is not of the open gather is late for the finished one, or is kept early. -/
theorem State.takeMoveNote_apart (apart : ¬ s.OfGather m) :
    s.takeMoveNote m =
      if s.play.finished.any fun g => g.matchesNote m.group m.cue (m.goTick : Nat) then
        s.tallyPlan fun k => { k with lateNotes := sat k.lateNotes }
      else s.keepEarly m := by
  have missed : (s.play.gather.filter fun g => g.matchesNote m.group m.cue (m.goTick : Nat)) = none := by
    rw [Option.filter_eq_none_iff]
    intro g isOpen matched
    exact apart ⟨g, isOpen, Gather.matchesNote_iff.mp matched⟩
  have inside : ¬ (m.group = 0 ∨ 15 < m.group) := by omega
  simp only [State.takeMoveNote, if_neg inside, missed]

theorem any_matchesNote_iff :
    (s.play.finished.any fun g => g.matchesNote m.group m.cue (m.goTick : Nat)) = true ↔ s.OfFinished m := by
  simp only [Option.any_eq_true, FinishedGather.matchesNote_iff, State.OfFinished]

include atLeast atMost in
theorem State.takeMoveNote_late (apart : ¬ s.OfGather m) (late : s.OfFinished m) :
    s.takeMoveNote m = s.tallyPlan fun k => { k with lateNotes := sat k.lateNotes } := by
  rw [State.takeMoveNote_apart atLeast atMost apart, if_pos (any_matchesNote_iff.mpr late)]

include atLeast atMost in
theorem State.takeMoveNote_early (apart : ¬ s.OfGather m) (early : ¬ s.OfFinished m) :
    s.takeMoveNote m = s.keepEarly m := by
  rw [State.takeMoveNote_apart atLeast atMost apart, if_neg (mt any_matchesNote_iff.mp early)]

end

/-! ### The commands -/

theorem exec_moveNote {s : State} {f : Frame} (taken : Taken s .moveNote f) :
    exec (.moveNote f) s = .next ((s.heard f).takeMoveNote (readMoveNote f.payload)) :=
  congrArg Host.Outcome.next (handOn_of_taken taken)

theorem exec_earlyNoteLapse {s : State} {i : Fin 4} {xs ys : List EarlyNote} {m : EarlyNote}
    (early : s.play.early = xs ++ m :: ys) (place : xs.length = i.val) (old : m.setAt + 250 ≤ s.uptime) :
    exec (.earlyNoteLapse i) s = .next (s.withPlay { s.play with early := xs ++ ys }) := by
  have entry : s.play.early[i.val]? = some m := by simp [early, ← place]
  have rest : s.play.early.eraseIdx i.val = xs ++ ys := by
    rw [early, ← place, List.eraseIdx_append_of_length_le (Nat.le_refl _), Nat.sub_self, List.eraseIdx_cons_zero]
  have due : s.earlyDue m = true := decide_eq_true old
  simp only [exec, execEarlyNoteLapse, entry, if_pos due, rest]

/-- Settles O36: a note by the gather it belongs to, an early one by the table it finds, and the lapse. -/
theorem moveNotes : Obligations.MoveNotes := by
  refine ⟨fun s f taken => ?_, fun s i xs ys m early place old => exec_earlyNoteLapse early place old⟩
  intro group cue tick ends ofGather ofFinished agrees entry goesBefore
  let t := s.heard f
  let m := readMoveNote f.payload
  rw [exec_moveNote taken]
  refine ⟨fun outside => ?_, fun g atLeast atMost isOpen isGroup isCue near => ?_, fun atLeast atMost apart late => ?_,
    fun atLeast atMost apart early miss room => ?_, fun raised atLeast atMost apart early hit length each => ?_,
    fun xs n ys atLeast atMost apart early split full miss ahead later => ?_⟩
  · rw [State.takeMoveNote_ignored (s := t) (m := m) outside]
  · rw [State.takeMoveNote_ofGather (s := t) (m := m) atLeast atMost isOpen ⟨isGroup, isCue, near⟩]
    rfl
  · rw [State.takeMoveNote_late (s := t) (m := m) atLeast atMost apart late]
    rfl
  · have missed : ¬ ∃ n ∈ t.play.early, m.hits n := fun ⟨n, mem, hits⟩ => miss n mem hits
    rw [State.takeMoveNote_early (s := t) (m := m) atLeast atMost apart early, State.keepEarly_joins missed room]
    rfl
  · rw [State.takeMoveNote_early (s := t) (m := m) atLeast atMost apart early,
      State.keepEarly_raises (s := t) (m := m) hit length each]
    rfl
  · have missed : ¬ ∃ n ∈ t.play.early, m.hits n := fun ⟨n, mem, hits⟩ => miss n mem hits
    have noRoom : ¬ t.play.early.length < 4 := by
      change ¬ s.play.early.length < 4
      omega
    have dropped : dropEarliest t.play.early = xs ++ ys := by
      rw [State.heard_play, split]
      exact dropEarliest_append (fun k mem => EarlyNote.goesBefore_iff.mpr (ahead k mem))
        fun k mem => mt EarlyNote.goesBefore_iff.mp (later k mem)
    rw [State.takeMoveNote_early (s := t) (m := m) atLeast atMost apart early,
      State.keepEarly_replaces missed noRoom, dropped]
    rfl

end Sys2Proof.Machine

/-! The Move Planner's figures: the least times its tests give and their bounds, the brake cap, the acceleration by the
grant, a plan's parts, and the profile (R94 to R98, R132). -/

namespace Sys2Proof.Machine

/-! ### The two tests and the minimum time (R96) -/

section

variable {vmax aEff dist : Nat}

theorem speedTime_le_iff (moves : 1 ≤ vmax) (T : Nat) : speedTime vmax dist ≤ T ↔ 4 * dist ≤ 3 * vmax * T :=
  ceilDiv_le_iff (by omega)

/-- The acceleration test holds of every longer time too, and of one within the search's reach. -/
theorem accelTime_spec (gains : 1 ≤ aEff) :
    256 * dist ≤ 3 * aEff * accelTime aEff dist ^ 2 ∧
      ∀ T, 256 * dist ≤ 3 * aEff * T ^ 2 → accelTime aEff dist ≤ T := by
  have up : ∀ m n : Nat, m ≤ n → decide (256 * dist ≤ 3 * aEff * m ^ 2) = true →
      decide (256 * dist ≤ 3 * aEff * n ^ 2) = true := by
    simp only [decide_eq_true_eq]
    intro m n le held
    exact Nat.le_trans held (Nat.mul_le_mul_left _ (Nat.pow_le_pow_left le 2))
  have within : decide (256 * dist ≤ 3 * aEff * (2 ^ ((256 * dist).log2 + 1)) ^ 2) = true := by
    rw [decide_eq_true_eq]
    have reach : 256 * dist < 2 ^ ((256 * dist).log2 + 1) := Nat.lt_log2_self
    calc 256 * dist ≤ 2 ^ ((256 * dist).log2 + 1) := Nat.le_of_lt reach
      _ ≤ (2 ^ ((256 * dist).log2 + 1)) ^ 2 := Nat.le_self_pow (by decide) _
      _ ≤ 3 * aEff * (2 ^ ((256 * dist).log2 + 1)) ^ 2 := Nat.le_mul_of_pos_left _ (by omega)
  obtain ⟨meets, least⟩ := smallestSuch_spec _ up _ within
  exact ⟨of_decide_eq_true meets, fun T held => least T (decide_eq_true held)⟩

theorem minimumTime_zero (moves : 1 ≤ vmax) (gains : 1 ≤ aEff) : minimumTime vmax aEff 0 = 0 := by
  have speed := (speedTime_le_iff (dist := 0) moves 0).mpr (by omega)
  have accel := (accelTime_spec (dist := 0) gains).2 0 (by omega)
  unfold minimumTime
  omega

/-- The greatest acceleration test time within the travel is the one at the least acceleration. -/
theorem accelTime_le_2147 (gains : 1 ≤ aEff) (travelled : dist ≤ 54000) : accelTime aEff dist ≤ 2147 :=
  (accelTime_spec gains).2 2147 (by omega)

theorem minimumTime_le_72000 (moves : 1 ≤ vmax) (gains : 1 ≤ aEff) (travelled : dist ≤ 54000) :
    minimumTime vmax aEff dist ≤ 72000 := by
  have speed : speedTime vmax dist ≤ 72000 := (speedTime_le_iff moves 72000).mpr (by omega)
  have accel := accelTime_le_2147 gains travelled
  unfold minimumTime
  omega

theorem minimumTime_slowest (gains : 1 ≤ aEff) : minimumTime 1 aEff 54000 = 72000 := by
  refine Nat.le_antisymm (minimumTime_le_72000 (Nat.le_refl 1) gains (Nat.le_refl _)) ?_
  have speed : speedTime 1 54000 = 72000 := by decide
  exact speed ▸ Nat.le_max_left ..

theorem accelTime_slowest : accelTime 1 54000 = 2147 := by
  refine Nat.le_antisymm (accelTime_le_2147 (Nat.le_refl 1) (Nat.le_refl _)) ?_
  obtain ⟨meets, -⟩ := accelTime_spec (aEff := 1) (dist := 54000) (Nat.le_refl 1)
  refine Nat.le_of_not_lt fun less => ?_
  have square : accelTime 1 54000 ^ 2 ≤ 2146 ^ 2 := Nat.pow_le_pow_left (Nat.le_of_lt_succ less) 2
  omega

end

/-! ### The brake cap (R132) -/

/-- A speed `w` shed at `aEff` a render frame: the sum of its first `n` terms, those that would fall below 0 as 0. -/
def shedSum (aEff w n : Nat) : Nat :=
  ((List.range n).map fun k => w - k * aEff).sum

section

variable {aEff w : Nat}

theorem shedSum_succ (aEff w n : Nat) : shedSum aEff w (n + 1) = shedSum aEff w n + (w - n * aEff) := by
  rw [shedSum, List.range_succ, List.map_append, List.sum_append_nat]
  rfl

/-- The sum of the numbers below `n + 1` from that of those below `n`. -/
theorem half_succ_mul (n : Nat) : (n + 1) * (n + 1 - 1) / 2 = n * (n - 1) / 2 + n := by
  have split : (n + 1) * (n + 1 - 1) = n * (n - 1) + n * 2 := by
    cases n with
    | zero => rfl
    | succ k =>
      rw [Nat.add_sub_cancel, Nat.add_sub_cancel, ← Nat.mul_add, Nat.mul_comm]
  rw [split, Nat.add_mul_div_right _ _ (by decide)]

/-- While no term falls below 0, the terms are an arithmetic progression. -/
theorem shedSum_add_triangle {n : Nat} (above : ∀ k < n, k * aEff ≤ w) :
    shedSum aEff w n + aEff * (n * (n - 1) / 2) = n * w := by
  induction n with
  | zero => simp [shedSum]
  | succ n ih =>
    have last := above n (Nat.lt_succ_self n)
    have before := ih fun k less => above k (Nat.lt_succ_of_lt less)
    rw [shedSum_succ, half_succ_mul, Nat.mul_add, Nat.succ_mul, Nat.mul_comm aEff n]
    omega

/-- Terms past the last one above 0 add nothing. -/
theorem shedSum_add {n : Nat} (shed : w ≤ n * aEff) (j : Nat) : shedSum aEff w (n + j) = shedSum aEff w n := by
  induction j with
  | zero => rfl
  | succ j ih =>
    have more : n * aEff ≤ (n + j) * aEff := Nat.mul_le_mul_right _ (Nat.le_add_right n j)
    rw [← Nat.add_assoc, shedSum_succ, ih]
    omega

/-- However many terms past the last one above 0 are taken, they add up to the stopping distance. -/
theorem shedSum_eq_stoppingDistance (sheds : 1 ≤ aEff) {n : Nat} (enough : w ≤ n) :
    shedSum aEff w n = stoppingDistance aEff w := by
  have least : ∀ t, ceilDiv w aEff ≤ t ↔ w ≤ aEff * t := fun t => ceilDiv_le_iff sheds
  have gone : w ≤ ceilDiv w aEff * aEff := by
    rw [Nat.mul_comm]
    exact (least _).mp (Nat.le_refl _)
  have few : ceilDiv w aEff ≤ n := (least n).mpr (Nat.le_trans enough (Nat.le_mul_of_pos_left n sheds))
  have above : ∀ k < ceilDiv w aEff, k * aEff ≤ w := by
    intro k less
    have short : ¬ w ≤ aEff * k := mt (least k).mpr (Nat.not_le.mpr less)
    rw [Nat.mul_comm]
    omega
  have triangle := shedSum_add_triangle above
  obtain ⟨j, rfl⟩ := Nat.exists_eq_add_of_le few
  rw [shedSum_add gone]
  simp only [stoppingDistance]
  omega

/-- A slower speed sheds no more in any render frame. -/
theorem shedSum_mono {v : Nat} (slower : v ≤ w) (n : Nat) : shedSum aEff v n ≤ shedSum aEff w n := by
  induction n with
  | zero => exact Nat.le_refl _
  | succ n ih =>
    rw [shedSum_succ, shedSum_succ]
    exact Nat.add_le_add ih (Nat.sub_le_sub_right slower _)

theorem stoppingDistance_mono (sheds : 1 ≤ aEff) {v : Nat} (slower : v ≤ w) :
    stoppingDistance aEff v ≤ stoppingDistance aEff w := by
  rw [← shedSum_eq_stoppingDistance sheds slower, ← shedSum_eq_stoppingDistance sheds (Nat.le_refl w)]
  exact shedSum_mono slower w

/-- A speed covers itself in the first render frame. -/
theorem le_stoppingDistance (sheds : 1 ≤ aEff) (w : Nat) : w ≤ stoppingDistance aEff w := by
  rw [← shedSum_eq_stoppingDistance sheds (Nat.le_succ w), shedSum, List.range_succ_eq_map, List.map_cons,
    List.sum_cons, Nat.zero_mul]
  exact Nat.le_add_right w _

theorem brakeCap_spec (sheds : 1 ≤ aEff) (err : Nat) :
    stoppingDistance aEff (brakeCap aEff err) ≤ err ∧
      ∀ w, stoppingDistance aEff w ≤ err → w ≤ brakeCap aEff err := by
  have down : ∀ m n : Nat, m ≤ n → decide (stoppingDistance aEff n ≤ err) = true →
      decide (stoppingDistance aEff m ≤ err) = true := by
    simp only [decide_eq_true_eq]
    exact fun m n le held => Nat.le_trans (stoppingDistance_mono sheds le) held
  have rest : decide (stoppingDistance aEff 0 ≤ err) = true := by simp [stoppingDistance]
  obtain ⟨meets, most⟩ := largestSuch_spec _ down rest (err.log2 + 1)
  refine ⟨of_decide_eq_true meets, fun w held => most w ?_ (decide_eq_true held)⟩
  exact Nat.lt_of_le_of_lt (Nat.le_trans (le_stoppingDistance sheds w) held) Nat.lt_log2_self

end

/-! ### The acceleration by the grant, and a plan (R94, R95, R97) -/

theorem clampNat_eq {lo hi : Nat} (h : lo ≤ hi) (x : Nat) : clampNat lo hi x = max lo (min x hi) := by
  unfold clampNat
  (repeat' split) <;> omega

theorem effectiveAccel_of_lt {a : AxisSettings} (less : a.holdCurrent < a.runCurrent) (grant : Nat) :
    effectiveAccel a grant =
      a.accelHold + (a.accel - a.accelHold) * (max a.holdCurrent (min grant a.runCurrent) - a.holdCurrent) /
        (a.runCurrent - a.holdCurrent) := by
  rw [effectiveAccel, if_neg (Nat.ne_of_gt less), clampNat_eq (Nat.le_of_lt less)]

section

variable (st : Settings) (grant : PerAxis Nat) (start target : PerAxis Int) (moveMs cap : Nat)

/-- The minimum time of one axis of a plan (R96). -/
def planMinimum (x : Axis) : Nat :=
  minimumTime (st.axes.get x).vmax (effectiveAccel (st.axes.get x) (grant.get x))
    ((makePlan st grant start target moveMs cap).target.get x - start.get x).natAbs

theorem makePlan_target (x : Axis) (soft : (st.axes.get x).softLow ≤ (st.axes.get x).softHigh) :
    (makePlan st grant start target moveMs cap).target.get x =
      max ((st.axes.get x).softLow : Int) (min ((st.axes.get x).softHigh : Int) (target.get x)) := by
  rw [← clampInt_eq (Int.ofNat_le.mpr soft)]
  cases x <;> rfl

theorem makePlan_length :
    (makePlan st grant start target moveMs cap).length =
      max (min (ceilDiv moveMs 4) cap)
        (max (planMinimum st grant start target moveMs cap .pan)
          (planMinimum st grant start target moveMs cap .tilt)) :=
  rfl

theorem makePlan_stretched_iff :
    (makePlan st grant start target moveMs cap).stretched = true ↔
      (min (ceilDiv moveMs 4) cap < (makePlan st grant start target moveMs cap).length ∧ 0 < moveMs) ∨
        ∃ x, 15000 < planMinimum st grant start target moveMs cap x := by
  have each : (∃ x, 15000 < planMinimum st grant start target moveMs cap x) ↔
      15000 < planMinimum st grant start target moveMs cap .pan ∨
        15000 < planMinimum st grant start target moveMs cap .tilt := by
    constructor
    · rintro ⟨_ | _, long⟩
      · exact .inl long
      · exact .inr long
    · rintro (long | long)
      · exact ⟨.pan, long⟩
      · exact ⟨.tilt, long⟩
  rw [each, ← or_assoc]
  simp only [makePlan, planMinimum, Bool.or_eq_true, Bool.and_eq_true, decide_eq_true_eq, PerAxis.get]

end

/-! ### Rounding, and the profile (R98) -/

/-- The rounded quotient is the nearest whole number, and of two as near the one farther from zero. -/
theorem roundDiv_roundedTo (n : Int) {d : Nat} (hd : 0 < d) : RoundedTo n d (roundDiv n d) := by
  have below := Nat.div_mul_le_self (2 * n.natAbs + d) (2 * d)
  have above := Nat.lt_div_mul_add (a := 2 * n.natAbs + d) (b := 2 * d) (by omega)
  unfold RoundedTo roundDiv
  generalize (2 * n.natAbs + d) / (2 * d) = q at *
  have twice : q * (2 * d) = 2 * (q * d) := Nat.mul_left_comm q 2 d
  have product : ((q : Int) * d) = ((q * d : Nat) : Int) := (Int.natCast_mul q d).symm
  rw [twice] at below above
  rcases Int.lt_trichotomy n 0 with negative | rfl | positive
  · rw [Int.sign_eq_neg_one_of_neg negative, Int.neg_one_mul, Int.neg_mul, product]
    omega
  · rw [Int.sign_zero, Int.zero_mul, Int.zero_mul]
    omega
  · rw [Int.sign_eq_one_of_pos positive, Int.one_mul, product]
    omega

/-- A value from 0 to `d`, on either side of 0. -/
def FromZeroTo (d r : Int) : Prop :=
  (0 ≤ r ∧ r ≤ d) ∨ (d ≤ r ∧ r ≤ 0)

theorem FromZeroTo.sub {d r : Int} (h : FromZeroTo d r) : FromZeroTo d (d - r) := by
  unfold FromZeroTo at *
  omega

theorem FromZeroTo.natAbs_le {d r : Int} (h : FromZeroTo d r) : r.natAbs ≤ d.natAbs := by
  unfold FromZeroTo at h
  omega

theorem FromZeroTo.mul_nonneg {d r : Int} (h : FromZeroTo d r) : 0 ≤ d * r := by
  rcases h with ⟨low, high⟩ | ⟨low, high⟩
  · exact Int.mul_nonneg (Int.le_trans low high) low
  · exact Int.mul_nonneg_of_nonpos_of_nonpos (Int.le_trans low high) high

/-- A part of `d`, rounded, lies from 0 to `d`. -/
theorem roundDiv_fromZeroTo (d : Int) {c D : Nat} (part : c ≤ D) (hD : 0 < D) :
    FromZeroTo d (roundDiv (d * (c : Int)) D) := by
  have whole : (2 * (d * (c : Int)).natAbs + D) / (2 * D) ≤ d.natAbs := by
    rw [Int.natAbs_mul, Int.natAbs_natCast, ← Nat.lt_succ_iff, Nat.div_lt_iff_lt_mul (by omega)]
    have le := Nat.mul_le_mul_left d.natAbs part
    have succ : d.natAbs.succ * (2 * D) = 2 * (d.natAbs * D) + 2 * D := by
      rw [Nat.succ_mul, Nat.mul_left_comm]
    omega
  unfold roundDiv FromZeroTo
  generalize (2 * (d * (c : Int)).natAbs + D) / (2 * D) = q at *
  rw [Int.sign_mul]
  rcases Nat.eq_zero_or_pos c with rfl | some
  · rw [Int.natCast_zero, Int.sign_zero, Int.mul_zero, Int.zero_mul]
    omega
  · rw [Int.sign_eq_one_of_pos (Int.natCast_pos.mpr some), Int.mul_one]
    rcases Int.lt_trichotomy d 0 with negative | rfl | positive
    · rw [Int.sign_eq_neg_one_of_neg negative]
      omega
    · rw [Int.sign_zero, Int.zero_mul]
      omega
    · rw [Int.sign_eq_one_of_pos positive]
      omega

section

variable {T n : Nat}

/-- The profile's numerator, as a whole number of `d`s (R98). -/
theorem eight_mul_mul_sq (d : Int) (k : Nat) : 8 * d * ((k ^ 2 : Nat) : Int) = d * ((8 * k ^ 2 : Nat) : Int) := by
  rw [Int.natCast_mul, Int.mul_comm 8 d, Int.mul_assoc]
  rfl

theorem profile_gaining (d : Int) (early : 4 * n ≤ T) :
    profile d T n = roundDiv (d * ((8 * n ^ 2 : Nat) : Int)) (3 * T ^ 2) := by
  rw [profile, if_pos early, eight_mul_mul_sq]

theorem profile_steady (d : Int) (past : T < 4 * n) (before : 4 * n < 3 * T) :
    profile d T n = roundDiv (d * ((8 * n - T : Nat) : Int)) (6 * T) := by
  rw [profile, if_neg (by omega), if_pos before]

theorem profile_losing (d : Int) (long : 0 < T) (late : 3 * T ≤ 4 * n) :
    profile d T n = d - roundDiv (d * ((8 * (T - n) ^ 2 : Nat) : Int)) (3 * T ^ 2) := by
  rw [profile, if_neg (by omega), if_neg (by omega), eight_mul_mul_sq]

theorem eight_sq_le {k T : Nat} (quarter : 4 * k ≤ T) : 8 * k ^ 2 ≤ 3 * T ^ 2 := by
  have square := Nat.pow_le_pow_left quarter 2
  rw [Nat.mul_pow] at square
  omega

/-- The profile stays between the start and the target. -/
theorem profile_fromZeroTo (d : Int) (long : 0 < T) (within : n ≤ T) : FromZeroTo d (profile d T n) := by
  have square : 0 < 3 * T ^ 2 := Nat.mul_pos (by decide) (Nat.pow_pos long)
  rcases Nat.lt_or_ge T (4 * n) with past | early
  · rcases Nat.lt_or_ge (4 * n) (3 * T) with before | late
    · rw [profile_steady d past before]
      exact roundDiv_fromZeroTo d (by omega) (by omega)
    · rw [profile_losing d long late]
      exact (roundDiv_fromZeroTo d (eight_sq_le (by omega)) square).sub
  · rw [profile_gaining d early]
    exact roundDiv_fromZeroTo d (eight_sq_le early) square

end

/-- The profile's three parts, its ends, and its bounds (R98). -/
theorem profile_spec (d : Int) {T n : Nat} (long : 0 < T) (within : n ≤ T) :
    (4 * n ≤ T → RoundedTo (8 * d * (n : Int) ^ 2) (3 * T ^ 2) (profile d T n)) ∧
      (T < 4 * n → 4 * n < 3 * T → RoundedTo (d * (8 * (n : Int) - T)) (6 * T) (profile d T n)) ∧
      (3 * T ≤ 4 * n → RoundedTo (8 * d * ((T : Int) - n) ^ 2) (3 * T ^ 2) (d - profile d T n)) ∧
      profile d T 0 = 0 ∧ profile d T T = d ∧ (profile d T n).natAbs ≤ d.natAbs ∧ 0 ≤ d * profile d T n := by
  have square : 0 < 3 * T ^ 2 := Nat.mul_pos (by decide) (Nat.pow_pos long)
  have between := profile_fromZeroTo d long within
  refine ⟨fun early => ?_, fun past before => ?_, fun late => ?_, ?_, ?_, between.natAbs_le, between.mul_nonneg⟩
  · have numerator : 8 * d * (n : Int) ^ 2 = d * ((8 * n ^ 2 : Nat) : Int) := by
      rw [← eight_mul_mul_sq, Int.natCast_pow]
    rw [profile_gaining d early, numerator]
    exact roundDiv_roundedTo _ square
  · have numerator : d * (8 * (n : Int) - T) = d * ((8 * n - T : Nat) : Int) := by
      rw [show ((8 * n - T : Nat) : Int) = 8 * (n : Int) - T by omega]
    rw [profile_steady d past before, numerator]
    exact roundDiv_roundedTo _ (by omega)
  · have numerator : 8 * d * ((T : Int) - n) ^ 2 = d * ((8 * (T - n) ^ 2 : Nat) : Int) := by
      rw [← eight_mul_mul_sq, Int.natCast_pow, Int.natCast_sub within]
    rw [profile_losing d long late, Int.sub_sub_self, numerator]
    exact roundDiv_roundedTo _ square
  · rw [profile_gaining d (Nat.zero_le T)]
    simp [roundDiv]
  · rw [profile_losing d long (by omega)]
    simp [roundDiv]

/-- Settles O32: the tests and their greatest values, the brake cap, the acceleration, the plan and the profile, each by
its own lemmas. -/
theorem searchesAreExact : Obligations.SearchesAreExact := by
  refine ⟨fun vmax aEff dist moves gains => ?_, ⟨fun aEff gains => minimumTime_slowest gains, accelTime_slowest⟩,
    fun aEff err sheds => ?_, fun a grant => ⟨fun same => if_pos same, fun less => effectiveAccel_of_lt less grant⟩,
    fun s start target moveMs cap soft => ?_, fun d T n long within => profile_spec d long within⟩
  · refine ⟨⟨(speedTime_le_iff moves _).mp (Nat.le_refl _), fun T => (speedTime_le_iff moves T).mpr⟩,
      accelTime_spec gains, rfl, ?_, fun travelled =>
        ⟨minimumTime_le_72000 moves gains travelled, accelTime_le_2147 gains travelled⟩⟩
    rintro rfl
    exact minimumTime_zero moves gains
  · intro stops
    have distance : ∀ w, stops w = stoppingDistance aEff w := fun w => shedSum_eq_stoppingDistance sheds (Nat.le_succ w)
    simp only [distance]
    exact brakeCap_spec sheds err
  · exact ⟨fun x => makePlan_target _ _ _ _ _ _ x (soft x), makePlan_length .., makePlan_stretched_iff ..⟩

end Sys2Proof.Machine

/-! What an axis driver makes of a boundary at which no slip is acted on: the event of each mode, the axis it leaves, and
the axis an overcurrent event trips (R129 to R140, R155 to R159). -/

namespace Sys2Proof.Machine

/-! ### The velocity of each mode (R132, R133, R155) -/

/-- The follow limiter changes the velocity by no more than the effective acceleration (R132). -/
theorem followed_within (st : AxisSettings) (grant : Nat) (a : AxisState) (setpoint : Int) :
    followed st grant a setpoint - a.v16 ≤ effectiveAccel st grant ∧
      a.v16 - followed st grant a setpoint ≤ effectiveAccel st grant := by
  rw [← followVelocity_eq_followed]
  unfold followVelocity
  extract_lets e bound
  obtain ⟨low, high, -⟩ := toward_bounds (effectiveAccel st grant) a.v16 (clampInt (-bound) bound e)
  omega

/-- The modes in which the axis follows its lane (R132). -/
def AxisMode.Follows (m : AxisMode) : Prop :=
  m = .ready ∨ m = .homing .returning

/-- The modes in which the velocity runs down to rest, of those a boundary finds (R133). -/
def AxisMode.RunsDown (m : AxisMode) : Prop :=
  m = .unsure ∨ m = .failed ∨ m = .tripped

/-- The homing phases that fail past 1.1 × the travel (R156). -/
def Phase.IsLimited (p : Phase) : Prop :=
  p = .seek ∨ p = .backoff ∨ p = .approach

section

variable {a : AxisState}

theorem AxisState.boundaryVelocity_of_follows (follows : a.mode.Follows) (st : AxisSettings) (grant : Nat)
    (setpoint : Int) :
    a.boundaryVelocity st (effectiveAccel st grant) setpoint = followed st grant a setpoint := by
  rw [← followVelocity_eq_followed]
  rcases follows with mode | mode <;> simp only [AxisState.boundaryVelocity, mode]

theorem AxisState.boundaryVelocity_of_runsDown (down : a.mode.RunsDown) (st : AxisSettings) (aEff : Nat)
    (setpoint : Int) : a.boundaryVelocity st aEff setpoint = max (a.v16 - aEff) (min (a.v16 + aEff) 0) := by
  rw [← toward_eq]
  rcases down with mode | mode | mode <;> simp only [AxisState.boundaryVelocity, mode]

theorem AxisState.boundaryVelocity_of_seek_or_backoff (mode : a.mode = .homing .seek ∨ a.mode = .homing .backoff)
    (st : AxisSettings) (aEff : Nat) (setpoint : Int) :
    a.boundaryVelocity st aEff setpoint =
      max (a.v16 - aEff) (min (a.v16 + aEff) (-(16 * (st.homingSpeed : Nat) : Int))) := by
  rw [← toward_eq]
  rcases mode with mode | mode <;> simp only [AxisState.boundaryVelocity, mode]

theorem AxisState.boundaryVelocity_of_approach (mode : a.mode = .homing .approach) (st : AxisSettings) (aEff : Nat)
    (setpoint : Int) :
    a.boundaryVelocity st aEff setpoint =
      max (a.v16 - aEff) (min (a.v16 + aEff) (if a.reference.isSome then 0 else 2 * (st.homingSpeed : Nat))) := by
  rw [← toward_eq]
  simp only [AxisState.boundaryVelocity, mode]

/-! ### The event of a boundary (R152, R156, R158, R159) -/

variable {x : Axis} {p : Phase} {setpoint : Int}

theorem AxisState.overrun_iff : a.overrun x = true ↔ 11 * travel x < 10 * (a.pos16 / 16 - a.phaseEntry).natAbs :=
  decide_eq_true_iff

theorem AxisState.settled_iff : a.settled setpoint = true ↔ a.v16 = 0 ∧ a.pos16 = setpoint * 16 := by
  rw [AxisState.settled, Bool.and_eq_true, beq_iff_eq, beq_iff_eq]
  omega

theorem AxisState.not_settled_iff : ¬ a.settled setpoint = true ↔ a.v16 ≠ 0 ∨ a.pos16 ≠ setpoint * 16 := by
  rw [AxisState.settled_iff, Decidable.not_and_iff_or_not]

theorem AxisState.eventAt_overrun (homing : a.mode = .homing p) (limited : p.IsLimited)
    (far : a.overrun x = true) : a.eventAt x setpoint = .homingFailed := by
  rcases limited with rfl | rfl | rfl <;> simp only [AxisState.eventAt, homing, if_pos far]

/-- A phase within its travel goes on, but APPROACH with its reference held once the axis stands. -/
theorem AxisState.eventAt_within (homing : a.mode = .homing p) (limited : p.IsLimited) (near : ¬ a.overrun x = true)
    (moves : p = .approach → a.reference = none ∨ a.v16 ≠ 0) : a.eventAt x setpoint = .nothing := by
  rcases limited with rfl | rfl | rfl
  · simp only [AxisState.eventAt, homing, if_neg near]
  · simp only [AxisState.eventAt, homing, if_neg near]
  · have goesOn : ¬ (a.reference.isSome && a.v16 == 0) = true := by
      rcases moves rfl with absent | moving
      · simp [absent]
      · simp [moving]
    simp only [AxisState.eventAt, homing, if_neg near, if_neg goesOn]

theorem AxisState.eventAt_countSet (homing : a.mode = .homing .approach) (near : ¬ a.overrun x = true) {r : Int}
    (taken : a.reference = some r) (stands : a.v16 = 0) : a.eventAt x setpoint = .countSet := by
  simp [AxisState.eventAt, homing, near, taken, stands]

theorem AxisState.eventAt_homed (homing : a.mode = .homing .returning) (settled : a.settled setpoint = true)
    (noSlip : a.slipPending = false) : a.eventAt x setpoint = .homed := by
  simp [AxisState.eventAt, homing, settled, noSlip]

theorem AxisState.eventAt_returning (homing : a.mode = .homing .returning) (apart : ¬ a.settled setpoint = true) :
    a.eventAt x setpoint = .nothing := by
  simp only [AxisState.eventAt, homing, if_neg apart]

theorem AxisState.eventAt_ready (ready : a.mode = .ready)
    (apart : a.slipPending = true → ¬ a.settled setpoint = true) :
    a.eventAt x setpoint = .nothing := by
  have noSlip : ¬ (a.settled setpoint && a.slipPending) = true := by
    rw [Bool.and_eq_true]
    exact fun ⟨settled, pending⟩ => apart pending settled
  simp only [AxisState.eventAt, ready, if_neg noSlip]

theorem AxisState.eventAt_runsDown (down : a.mode.RunsDown) : a.eventAt x setpoint = .nothing := by
  rcases down with mode | mode | mode <;> simp only [AxisState.eventAt, mode]

end

/-- The axis after SET, with its new walk: position and output shifted until the reference stands at the rise position
(R158). -/
theorem AxisState.applyEvent_countSet_newWalk {a : AxisState} (st : AxisSettings) {r : Int}
    (held : a.reference = some r) :
    let d : Int := (st.risePos : Nat) - r
    let p := max (-134217728) (min 134217727 (a.pos16 + 16 * d))
    (a.applyEvent st .countSet).newWalk =
      { a with
        mode := .homing .returning, pass := none, pos16 := p, output := a.output + d,
        walk := { origin := a.output + d, target := p / 16, walked := 0 }, phaseEntry := p / 16 } := by
  have inRange := clampInt_eq (show (-134217728 : Int) ≤ 134217727 by decide)
  simp only [AxisState.applyEvent, AxisState.setPhase, AxisState.shiftCount, AxisState.newWalk, AxisState.position,
    inRange, held, Option.getD_some]

/-! ### Lag, current and run flag by the mode (R134, R135) -/

section

variable {m : AxisMode} {p : Phase} {a : AxisState}

theorem bne_zero_eq_decide (v : Int) : (v != 0) = decide (v ≠ 0) := by
  by_cases rest : v = 0 <;> simp [rest]

/-- The hold current of an axis that stands and the grant of one that moves, as its row gives them (R135). -/
theorem ite_rest_eq (v : Int) (grant hold : Nat) :
    (if v = 0 then hold else grant) = if decide (v ≠ 0) then grant else hold := by
  by_cases rest : v = 0 <;> simp [rest]

theorem runRow_of_follows (follows : m.Follows) (v : Int) (fades : Prop) [Decidable fades] :
    runRow m (v != 0) (decide fades) = some (decide (v ≠ 0 ∨ fades)) := by
  rw [bne_zero_eq_decide, Bool.decide_or]
  rcases follows with rfl | rfl <;> rfl

theorem runRow_of_isLimited (limited : p.IsLimited) (isMoving fades : Bool) :
    runRow (.homing p) isMoving fades = some true := by
  rcases limited with rfl | rfl | rfl <;> rfl

theorem AxisState.lagAt_of_follows (follows : a.mode.Follows) (setpoint : Int) :
    a.lagAt setpoint = some (setpoint - a.pos16 / 16).natAbs := by
  rcases follows with mode | mode <;> simp only [AxisState.lagAt, mode, AxisState.position]

theorem AxisState.lagAt_of_isLimited (homing : a.mode = .homing p) (limited : p.IsLimited) (setpoint : Int) :
    a.lagAt setpoint = none := by
  rcases limited with rfl | rfl | rfl <;> simp only [AxisState.lagAt, homing]

theorem AxisState.lagAt_of_runsDown (down : a.mode.RunsDown) (setpoint : Int) : a.lagAt setpoint = none := by
  rcases down with mode | mode | mode <;> simp only [AxisState.lagAt, mode]

end

/-! ### Counters (R143, R156, R159) -/

theorem State.tallyAxis_self (s : State) (x : Axis) : (s.tallyAxis x fun t => t) = s := by
  unfold State.tallyAxis State.tally
  simp only [PerAxis.set_get, ite_self]
  rfl

/-! ### The whole boundary (R131) -/

section

variable {s : State} {x : Axis} {b : Int} {rest : List Int} {v : Int}

/-- An axis that no slip is acted on for takes no SLIP request by its event. -/
theorem AxisState.applyEvent_request (a : AxisState) (st : AxisSettings) {e : AxisEvent} (noSlip : e ≠ .slipActed) :
    (a.applyEvent st e).request = a.request := by
  cases e with
  | slipActed => exact absurd rfl noSlip
  | _ => rfl

variable (front : s.marks.axes.get x = b :: rest) (request : (s.axes.get x).request ≠ some .slip)
  (velocity : (s.axes.get x).boundaryVelocity (s.settings.axes.get x)
    (effectiveAccel (s.settings.axes.get x) (s.feed.grant.get x)) (s.positionAt x b) = v)

include front request velocity

/-- A boundary with no slip acted on and no SLIP request: the axis carried by its velocity, turned by its event, with a
new walk, and its lag, current and run flag by the rows of R134 and R135. -/
theorem exec_axisBoundary_of_event {e : AxisEvent}
    (event : ((s.axes.get x).carried v).eventAt x (s.positionAt x b) = e) (noSlip : e ≠ .slipActed) {y : AxisState}
    (turned : (((s.axes.get x).carried v).applyEvent (s.settings.axes.get x) e).newWalk = y) {lag : Option Nat}
    (lags : y.lagAfter e (s.positionAt x b) = lag) {runs : Option Bool}
    (row : runRow (if e = .countSet then .homing .set else y.mode) (y.v16 != 0)
      (decide (s.play.pos.timing.state = .fade)) = runs) :
    exec (.axisBoundary x) s = .next
      ((boundaryTaken s x rest
        { y with
          lag := lag,
          current := runs.map fun r => if r then s.feed.grant.get x else (s.settings.axes.get x).holdCurrent,
          running := runs.getD false }).tallyAxis x fun t => t.countEvent e) := by
  subst velocity turned lags row
  have kept := ((s.axisMoved x b).applyEvent_request (s.settings.axes.get x) noSlip).trans
    (show (s.axisMoved x b).request = (s.axes.get x).request from rfl)
  have notTaken : ((s.axisMoved x b).applyEvent (s.settings.axes.get x) e).slipRequestTaken (s.settings.axes.get x)
      (s.intensityAt b) = false := by
    simp [AxisState.slipRequestTaken, kept, request]
  rw [← AxisState.move_newWalk] at event ⊢
  rw [exec, execAxisBoundary_eq s x b rest front e event false notTaken]
  simp only [AxisState.finishBoundary_eq]
  cases e <;> rfl

/-- A boundary that leaves the mode as it is (R131). -/
theorem exec_axisBoundary_goesOn
    (event : ((s.axes.get x).carried v).eventAt x (s.positionAt x b) = .nothing) {lag : Option Nat}
    (lags : ((s.axes.get x).carried v).lagAt (s.positionAt x b) = lag) {runs : Option Bool}
    (row : runRow (s.axes.get x).mode (v != 0) (decide (s.play.pos.timing.state = .fade)) = runs) :
    exec (.axisBoundary x) s = .next
      (boundaryTaken s x rest
        { (s.axes.get x).carried v with
          lag := lag,
          current := runs.map fun r => if r then s.feed.grant.get x else (s.settings.axes.get x).holdCurrent,
          running := runs.getD false }) := by
  rw [exec_axisBoundary_of_event front request velocity event (by simp) rfl lags row]
  exact congrArg Host.Outcome.next (State.tallyAxis_self _ x)

/-- A boundary in a mode that follows the lane, at which the mode stays (R132, R134, R135). -/
theorem exec_axisBoundary_follows (follows : (s.axes.get x).mode.Follows)
    (event : ((s.axes.get x).carried v).eventAt x (s.positionAt x b) = .nothing) :
    let runs := decide (v ≠ 0 ∨ s.play.pos.timing.state = .fade)
    exec (.axisBoundary x) s = .next
      (boundaryTaken s x rest
        { (s.axes.get x).carried v with
          lag := some (s.positionAt x b - ((s.axes.get x).carried v).pos16 / 16).natAbs,
          current := some (if runs then s.feed.grant.get x else (s.settings.axes.get x).holdCurrent),
          running := runs }) :=
  exec_axisBoundary_goesOn front request velocity event
    (AxisState.lagAt_of_follows (a := (s.axes.get x).carried v) follows _) (runRow_of_follows follows v _)

/-- A phase that has run past 1.1 × the travel fails (R156). -/
theorem exec_axisBoundary_fails {p : Phase} (homing : (s.axes.get x).mode = .homing p) (limited : p.IsLimited)
    (far : ((s.axes.get x).carried v).overrun x = true) :
    exec (.axisBoundary x) s = .next
      ((boundaryTaken s x rest
        { (s.axes.get x).carried v with
          mode := .failed, pass := none, lag := none,
          current := some (if v = 0 then (s.settings.axes.get x).holdCurrent else s.feed.grant.get x),
          running := decide (v ≠ 0) }).tallyAxis x
            fun k => { k with homingFailures := min (k.homingFailures + 1) 65535 }) := by
  have event : ((s.axes.get x).carried v).eventAt x (s.positionAt x b) = .homingFailed :=
    AxisState.eventAt_overrun homing limited far
  rw [ite_rest_eq]
  exact exec_axisBoundary_of_event front request velocity event (by simp) rfl rfl (congrArg some (bne_zero_eq_decide v))

/-- A phase that fails past 1.1 × the travel, but APPROACH about to set the count (R155, R156). -/
theorem exec_axisBoundary_phase {p : Phase} (homing : (s.axes.get x).mode = .homing p) (limited : p.IsLimited)
    (moves : p = .approach → (s.axes.get x).reference = none ∨ v ≠ 0)
    (near : ¬ ((s.axes.get x).carried v).overrun x = true) :
    exec (.axisBoundary x) s = .next
      (boundaryTaken s x rest
        { (s.axes.get x).carried v with lag := none, current := some (s.feed.grant.get x), running := true }) :=
  have row : runRow (s.axes.get x).mode (v != 0) (decide (s.play.pos.timing.state = .fade)) = some true :=
    homing ▸ runRow_of_isLimited limited _ _
  exec_axisBoundary_goesOn front request velocity
    (AxisState.eventAt_within (a := (s.axes.get x).carried v) homing limited near moves)
    (AxisState.lagAt_of_isLimited (a := (s.axes.get x).carried v) homing limited _) row

/-- APPROACH with its reference held, at rest: SET is entered and left for RETURN (R158). -/
theorem exec_axisBoundary_setsCount {r : Int} (homing : (s.axes.get x).mode = .homing .approach)
    (held : (s.axes.get x).reference = some r) (stands : v = 0)
    (near : ¬ ((s.axes.get x).carried v).overrun x = true) :
    let y := (s.axes.get x).carried v
    let d : Int := ((s.settings.axes.get x).risePos : Nat) - r
    let p := max (-134217728) (min 134217727 (y.pos16 + 16 * d))
    exec (.axisBoundary x) s = .next
      (boundaryTaken s x rest
        { y with
          mode := .homing .returning, pass := none, pos16 := p, output := y.output + d,
          walk := { origin := y.output + d, target := p / 16, walked := 0 }, phaseEntry := p / 16,
          lag := some (s.positionAt x b - p / 16).natAbs, current := some (s.settings.axes.get x).holdCurrent,
          running := false }) := by
  intro y d p
  have event : y.eventAt x (s.positionAt x b) = .countSet := AxisState.eventAt_countSet homing near held stands
  have row : runRow (.homing .set) (v != 0) (decide (s.play.pos.timing.state = .fade)) = some false := by
    rw [stands]
    rfl
  rw [exec_axisBoundary_of_event front request velocity event (by simp)
    (AxisState.applyEvent_countSet_newWalk (a := y) _ held) rfl row]
  exact congrArg Host.Outcome.next (State.tallyAxis_self _ x)

/-- RETURN that stands on its setpoint ends in READY (R159). -/
theorem exec_axisBoundary_homes (homing : (s.axes.get x).mode = .homing .returning)
    (settled : ((s.axes.get x).carried v).settled (s.positionAt x b) = true)
    (noSlip : (s.axes.get x).slipPending = false) :
    let runs := decide (v ≠ 0 ∨ s.play.pos.timing.state = .fade)
    exec (.axisBoundary x) s = .next
      ((boundaryTaken s x rest
        { (s.axes.get x).carried v with
          mode := .ready, lag := none,
          current := some (if runs then s.feed.grant.get x else (s.settings.axes.get x).holdCurrent),
          running := runs }).tallyAxis x
            fun k => { k with homesCompleted := min (k.homesCompleted + 1) 65535 }) :=
  exec_axisBoundary_of_event front request velocity
    (AxisState.eventAt_homed (a := (s.axes.get x).carried v) homing settled noSlip) (by simp) rfl rfl
    (runRow_of_follows (.inl rfl) v _)

/-- UNSURE and FAILED run down at the grant until they stand (R133, R135). -/
theorem exec_axisBoundary_unsure_or_failed (mode : (s.axes.get x).mode = .unsure ∨ (s.axes.get x).mode = .failed) :
    exec (.axisBoundary x) s = .next
      (boundaryTaken s x rest
        { (s.axes.get x).carried v with
          lag := none,
          current := some (if v = 0 then (s.settings.axes.get x).holdCurrent else s.feed.grant.get x),
          running := decide (v ≠ 0) }) := by
  have down : ((s.axes.get x).carried v).mode.RunsDown := mode.imp_right .inl
  have row : runRow (s.axes.get x).mode (v != 0) (decide (s.play.pos.timing.state = .fade)) =
      some (decide (v ≠ 0)) := by
    rw [bne_zero_eq_decide]
    rcases mode with mode | mode <;> rw [mode] <;> rfl
  rw [ite_rest_eq]
  exact exec_axisBoundary_goesOn front request velocity (AxisState.eventAt_runsDown down)
    (AxisState.lagAt_of_runsDown down _) row

/-- TRIPPED runs down with no current (R133, R135). -/
theorem exec_axisBoundary_tripped (mode : (s.axes.get x).mode = .tripped) :
    exec (.axisBoundary x) s = .next
      (boundaryTaken s x rest
        { (s.axes.get x).carried v with lag := none, current := none, running := false }) := by
  have down : ((s.axes.get x).carried v).mode.RunsDown := .inr (.inr mode)
  have row : runRow (s.axes.get x).mode (v != 0) (decide (s.play.pos.timing.state = .fade)) = none := by
    rw [mode]
    rfl
  exact exec_axisBoundary_goesOn front request velocity (AxisState.eventAt_runsDown down)
    (AxisState.lagAt_of_runsDown down _) row

end

/-- Settles O43: the follow limiter's bound, and a boundary that leaves READY as it is. -/
theorem axisFollows : Obligations.AxisFollows := by
  intro s x b rest front ready request st a grant aEff setpoint v y runs unsettled
  have follows : a.mode.Follows := .inl ready
  exact ⟨followed_within st grant a setpoint,
    exec_axisBoundary_follows front request (AxisState.boundaryVelocity_of_follows follows st grant setpoint) follows
      (AxisState.eventAt_ready (a := y) ready fun pending => AxisState.not_settled_iff.mpr (unsettled pending))⟩

/-- Settles O44: each homing phase and each mode that runs down, by the event its boundary has. -/
theorem homingBoundaries : Obligations.HomingBoundaries := by
  intro s x b rest front request st a grant aEff setpoint brought isFar fails phase
  have far_iff : ∀ v, (a.carried v).overrun x = true ↔ isFar (a.carried v) := fun v => AxisState.overrun_iff
  have phases : ∀ {p : Phase} {aim : Int}, a.mode = .homing p → p.IsLimited →
      a.boundaryVelocity st (effectiveAccel st grant) setpoint = brought aim →
      (p = .approach → a.reference = none ∨ brought aim ≠ 0) → phase aim := by
    intro p aim homing limited velocity moves
    exact ⟨fun far => exec_axisBoundary_fails front request velocity homing limited ((far_iff _).mpr far),
      fun near => exec_axisBoundary_phase front request velocity homing limited moves (mt (far_iff _).mp near)⟩
  have approaches : ∀ {aim : Int}, a.mode = .homing .approach →
      (if a.reference.isSome then 0 else 2 * (st.homingSpeed : Nat) : Int) = aim →
      a.boundaryVelocity st (effectiveAccel st grant) setpoint = brought aim := by
    rintro aim homing rfl
    exact AxisState.boundaryVelocity_of_approach homing st _ setpoint
  refine ⟨fun seek => ?_, fun backoff => ?_, fun approach absent => ?_, fun r approach held moving => ?_,
    fun r approach held stands => ?_, fun returning => ?_, fun idle => ?_, fun tripped => ?_⟩
  · exact phases seek (.inl rfl) (AxisState.boundaryVelocity_of_seek_or_backoff (.inl seek) st _ setpoint) nofun
  · exact phases backoff (.inr (.inl rfl)) (AxisState.boundaryVelocity_of_seek_or_backoff (.inr backoff) st _ setpoint)
      nofun
  · exact phases approach (.inr (.inr rfl)) (approaches approach (by simp [absent])) fun _ => .inl absent
  · exact phases approach (.inr (.inr rfl)) (approaches approach (by simp [held])) fun _ => .inr moving
  · have velocity : a.boundaryVelocity st (effectiveAccel st grant) setpoint = 0 :=
      (approaches approach (by simp [held])).trans stands
    exact ⟨fun far =>
        exec_axisBoundary_fails front request velocity approach (.inr (.inr rfl)) ((far_iff 0).mpr far),
      fun near =>
        exec_axisBoundary_setsCount front request velocity approach held rfl (mt (far_iff 0).mp near)⟩
  · have velocity := AxisState.boundaryVelocity_of_follows (.inr returning) st grant setpoint
    refine ⟨fun apart => ?_, fun stands onto noSlip => ?_⟩
    · exact exec_axisBoundary_follows front request velocity (.inr returning)
        (AxisState.eventAt_returning returning (AxisState.not_settled_iff.mpr apart))
    · exact exec_axisBoundary_homes front request velocity returning (AxisState.settled_iff.mpr ⟨stands, onto⟩) noSlip
  · have down : a.mode.RunsDown := idle.imp_right .inl
    exact exec_axisBoundary_unsure_or_failed front request (AxisState.boundaryVelocity_of_runsDown down st _ setpoint)
      idle
  · exact exec_axisBoundary_tripped front request
      (AxisState.boundaryVelocity_of_runsDown (.inr (.inr tripped)) st _ setpoint) tripped

/-! ### Overcurrent (R140) -/

theorem AxisState.driven_iff {a : AxisState} : a.driven = true ↔ a.bridgeEnable = true ∧ a.mode ≠ .tripped := by
  rw [AxisState.driven, Bool.and_eq_true, bne_iff_ne]

/-- Settles O46: an axis trips if and only if its bridges are driven. -/
theorem overcurrentTrips : Obligations.OvercurrentTrips := by
  intro s x c a
  constructor
  · exact fun enabled => congrArg Host.Outcome.next (if_pos (AxisState.driven_iff.mpr enabled))
  · intro idle
    have notDriven : ¬ a.driven = true := by
      rcases idle with disabled | tripped
      · simp [AxisState.driven_iff, disabled]
      · simp [AxisState.driven_iff, tripped]
    exact congrArg Host.Outcome.next (if_neg notDriven)

end Sys2Proof.Machine

/-! What a scan reads of its raw values, and what an axis makes of an index edge: the capture, and what the mode does with
it (R144 to R155, R161). -/

namespace Sys2Proof.Machine

/-! ### The conversions of a scan (R145) -/

theorem temperature_eq (raw : BitVec 12) : temperature raw = (raw.toNat : Int) * 165 / 4096 - 40 := by
  simp [temperature]

/-- Twelve bits read −40 to 124 °C. -/
theorem temperature_bounds (raw : BitVec 12) : -40 ≤ temperature raw ∧ temperature raw ≤ 124 := by
  have bits : raw.toNat < 4096 := raw.isLt
  rw [temperature_eq]
  omega

theorem feedUnits_le (raw : BitVec 12) : feedUnits raw ≤ 8190 := by
  have bits : raw.toNat < 4096 := raw.isLt
  unfold feedUnits
  omega

/-- The overcurrent report a scan may hand on leaves the scan's values (R144, R146). -/
@[simp] theorem State.scan_sense (s : State) (e d i : BitVec 12) : (s.scan e d i).sense = s.scanned e d i := by
  simp only [State.scan]
  split <;> simp

theorem exec_senseScan {s : State} (due : s.sense.nextScan ≤ s.uptime) (e d i : BitVec 12) :
    exec (.senseScan e d i) s = .next (s.scan e d i) :=
  congrArg Host.Outcome.next (if_pos due)

/-- Settles O50: the values held after a due scan are those of `State.scanned`, whatever was held before. -/
theorem senseConversion : Obligations.SenseConversion := by
  intro s e d i due
  obtain ⟨emitterLow, emitterHigh⟩ := temperature_bounds e
  obtain ⟨driverLow, driverHigh⟩ := temperature_bounds d
  refine ⟨s.scan e d i, exec_senseScan due e d i, ?_⟩
  rw [State.scan_sense]
  exact ⟨temperature_eq e, temperature_eq d, rfl, emitterLow, emitterHigh, driverLow, driverHigh, feedUnits_le i⟩

/-! ### The captured edge (R147, R148) -/

/-- A rise moving down and a fall moving up are expected at the fall position, the other two at the rise position
(R147). -/
theorem AxisSettings.expected_eq (st : AxisSettings) (e : Edge) (v : Int) :
    st.expected e (decide (v < 0)) = if (e = .rise ↔ v < 0) then (st.fallPos : Int) else (st.risePos : Int) := by
  by_cases down : v < 0 <;> cases e <;> simp [AxisSettings.expected, down]

theorem exec_indexEdge_stands {s : State} {x : Axis} (stands : (s.axes.get x).v16 = 0) (e : Edge) :
    exec (.indexEdge x e) s =
      .next { s with pins := { s.pins with index := s.pins.index.set x (decide (e = .rise)) } } :=
  congrArg Host.Outcome.next (if_pos stands)

section

variable {s : State} {x : Axis} {e : Edge} {c : Capture} {y : AxisState} {o : CaptureOutcome}
  (moves : (s.axes.get x).v16 ≠ 0) (capture : (s.axes.get x).captureOf (s.settings.axes.get x) e = c)
  (handled : (s.axes.get x).edge (s.settings.axes.get x) c = ⟨y, o⟩)

include moves capture handled

/-- An edge of a moving axis: the pin, the axis as its mode leaves it with the capture, and the count (R148, R161). -/
theorem exec_indexEdge_moves :
    exec (.indexEdge x e) s = .next
      (({ s with
          pins := { s.pins with index := s.pins.index.set x (decide (e = .rise)) },
          axes := s.axes.set x { y with capture := some { c with outcome := o } } } : State).tallyAxis x
            fun k => k.countEdge c.deviation o) := by
  subst capture
  have moved : exec (.indexEdge x e) s = _ := congrArg Host.Outcome.next (if_neg moves)
  rw [moved, handled]
  rfl

/-- An edge held, taken by a phase or ignored is not counted (R161). -/
theorem exec_indexEdge_uncounted (uncounted : ∀ k : AxisStats, k.countEdge c.deviation o = k) :
    exec (.indexEdge x e) s = .next
      { s with
        pins := { s.pins with index := s.pins.index.set x (decide (e = .rise)) },
        axes := s.axes.set x { y with capture := some { c with outcome := o } } } := by
  rw [exec_indexEdge_moves moves capture handled]
  simp only [uncounted, State.tallyAxis_self]

end

section

variable {a : AxisState} {st : AxisSettings} {c : Capture} {d : Int}

/-! ### The index check (R149 to R151) -/

/-- A fall closes a pass held in its own direction whose width misses the band's by more than the vane tolerance
(R150). -/
def AxisState.WrongWidth (a : AxisState) (st : AxisSettings) (c : Capture) : Prop :=
  ∃ p, a.pass = some p ∧ p.negative = c.negative ∧
    st.vaneTolerance < (((c.microstep - p.microstep).natAbs : Int) - (st.fallPos - st.risePos : Nat)).natAbs

theorem AxisSettings.widthHolds_iff {measured : Nat} :
    st.widthHolds measured = true ↔
      ¬ st.vaneTolerance < ((measured : Int) - (st.fallPos - st.risePos : Nat)).natAbs :=
  decide_eq_true_iff.trans Nat.not_lt.symm

theorem AxisState.check_rise (rise : c.edge = .rise) :
    a.check st c =
      ⟨{ a with pass := some { negative := c.negative, microstep := c.microstep, deviation := c.deviation } }, .held⟩ := by
  simp only [AxisState.check, rise]

theorem AxisState.check_wrongWidth (fall : c.edge = .fall) (wrong : a.WrongWidth st c) :
    a.check st c = ⟨{ a with pass := none }, .vaneFault⟩ := by
  obtain ⟨p, held, sameWay, apart⟩ := wrong
  have off : ¬ st.widthHolds (c.microstep - p.microstep).natAbs = true := fun holds =>
    AxisSettings.widthHolds_iff.mp holds apart
  simp only [AxisState.check, fall, held, if_pos sameWay, if_neg off]

/-- With no pass of the wrong width the fall is judged on its own deviation: no pass, one in the other direction, or one
as wide as the band (R150, R151). -/
theorem AxisState.check_judges (fall : c.edge = .fall) (right : ¬ a.WrongWidth st c) :
    a.check st c = a.judge st c.deviation := by
  cases held : a.pass with
  | none => simp only [AxisState.check, fall, held]
  | some p =>
    by_cases sameWay : p.negative = c.negative
    · have holds : st.widthHolds (c.microstep - p.microstep).natAbs = true :=
        AxisSettings.widthHolds_iff.mpr fun apart => right ⟨p, held, sameWay, apart⟩
      simp only [AxisState.check, fall, held, if_pos sameWay, if_pos holds]
    · simp only [AxisState.check, fall, held, if_neg sameWay]

theorem AxisState.judge_slip (beyond : st.slipTolerance < d.natAbs) :
    a.judge st d = ⟨{ a with pass := none, slipPending := true }, .slip⟩ :=
  if_neg (Nat.not_le.mpr beyond)

/-- A correction moves position, output and walk alike (R151). -/
theorem AxisState.judge_corrected (within : d.natAbs ≤ st.slipTolerance) :
    a.judge st d =
      ⟨({ a with
          pass := none, pos16 := max (-134217728) (min 134217727 (a.pos16 - 16 * d)), output := a.output - d,
          walk := { a.walk with origin := a.walk.origin - d, target := a.walk.target - d } } : AxisState).rewrite st,
        .corrected⟩ := by
  simp only [AxisState.judge, if_pos within, AxisState.shiftCount,
    clampInt_eq (show (-134217728 : Int) ≤ 134217727 by decide), Int.mul_neg, ← Int.sub_eq_add_neg]

/-! ### What each mode does with a captured edge (R148, R155) -/

/-- The index check takes the edges of READY and RETURN, while no slip is pending. -/
theorem AxisState.edge_checks (follows : a.mode.Follows) (noSlip : a.slipPending = false) :
    a.edge st c = a.check st c := by
  rcases follows with mode | mode <;> simp [AxisState.edge, mode, noSlip]

theorem AxisState.edge_judges {r : EdgeResult} (follows : a.mode.Follows) (noSlip : a.slipPending = false)
    (fall : c.edge = .fall) (right : ¬ a.WrongWidth st c) (judged : a.judge st c.deviation = r) :
    a.edge st c = r :=
  (AxisState.edge_checks follows noSlip).trans ((AxisState.check_judges fall right).trans judged)

theorem AxisState.edge_ignored (ignores : a.mode.RunsDown ∨ a.mode.Follows ∧ a.slipPending = true) :
    a.edge st c = ⟨a, .ignored⟩ := by
  rcases ignores with (mode | mode | mode) | ⟨mode | mode, pending⟩
  · simp only [AxisState.edge, mode]
  · simp only [AxisState.edge, mode]
  · simp only [AxisState.edge, mode]
  · simp only [AxisState.edge, mode, if_pos pending]
  · simp only [AxisState.edge, mode, if_pos pending]

/-- The phases that take an edge are those limited to 1.1 × the travel: SEEK, BACKOFF and APPROACH. -/
theorem AxisState.edge_phase_eq {p : Phase} {y : AxisState} (homing : a.mode = .homing p) (limited : p.IsLimited)
    (taken : a.phaseEdge p c = y) : a.edge st c = ⟨y, .phase⟩ := by
  subst taken
  rcases limited with rfl | rfl | rfl <;> simp only [AxisState.edge, homing]

/-- SEEK ends at either edge; a fall ends the BACKOFF it enters at once, with the same entry position. -/
theorem AxisState.phaseEdge_seek :
    a.phaseEdge .seek c = a.enterPhase (if c.edge = .rise then .backoff else .approach) := by
  cases edge : c.edge <;> simp [AxisState.phaseEdge, AxisState.enterPhase, AxisState.position, edge]

theorem AxisState.phaseEdge_backoff_fall (fall : c.edge = .fall) :
    a.phaseEdge .backoff c = a.enterPhase .approach := by
  simp only [AxisState.phaseEdge, fall]

theorem AxisState.phaseEdge_approach_reference (rise : c.edge = .rise) (up : c.negative = false)
    (absent : a.reference = none) :
    a.phaseEdge .approach c = { a with reference := some c.microstep } := by
  simp only [AxisState.phaseEdge, rise, if_pos (And.intro up absent)]

theorem AxisState.phaseEdge_backoff_rise (rise : c.edge = .rise) : a.phaseEdge .backoff c = a := by
  simp only [AxisState.phaseEdge, rise]

/-- APPROACH keeps to its first rise moving up: a fall, a rise moving down and a later rise leave it (log 30). -/
theorem AxisState.phaseEdge_approach_other
    (other : c.edge = .fall ∨ c.negative = true ∨ a.reference ≠ none) : a.phaseEdge .approach c = a := by
  cases edge : c.edge with
  | fall => simp only [AxisState.phaseEdge, edge]
  | rise =>
    have notTaken : ¬ (c.negative = false ∧ a.reference = none) := by
      rintro ⟨up, absent⟩
      simp [edge, up, absent] at other
    simp only [AxisState.phaseEdge, edge, if_neg notTaken]

end

/-- An edge that a homing phase takes, or that it passes by (R148, R155). -/
theorem exec_indexEdge_phase {s : State} {x : Axis} {e : Edge} {c : Capture} {p : Phase} {y : AxisState}
    (moves : (s.axes.get x).v16 ≠ 0) (capture : (s.axes.get x).captureOf (s.settings.axes.get x) e = c)
    (homing : (s.axes.get x).mode = .homing p) (limited : p.IsLimited)
    (taken : (s.axes.get x).phaseEdge p c = y) :
    exec (.indexEdge x e) s = .next
      { s with
        pins := { s.pins with index := s.pins.index.set x (decide (e = .rise)) },
        axes := s.axes.set x { y with capture := some { c with outcome := .phase } } } :=
  exec_indexEdge_uncounted moves capture (AxisState.edge_phase_eq homing limited taken) fun _ => rfl

/-- Settles O51: the edge's capture, handled by what the mode of the axis does with it. -/
theorem indexEdge : Obligations.IndexEdge := by
  intro s x e a st pinned down d captured checks tooWide moved enter
  have capture : a.captureOf st e =
      { edge := e, negative := down, microstep := a.output, deviation := d, mode := a.mode, outcome := .ignored } :=
    congrArg (fun p => { a.captureOf st e with deviation := a.output - p }) (AxisSettings.expected_eq st e a.v16)
  refine ⟨fun stands => exec_indexEdge_stands stands e, ?held, ?vaneFault, ?slip, ?corrected, ?ignored, ?seek, ?backoff,
    ?reference, ?phaseStays⟩
  case held =>
    rintro ⟨moves, follows, noSlip⟩ rise
    exact exec_indexEdge_uncounted moves capture
      ((AxisState.edge_checks follows noSlip).trans (AxisState.check_rise rise)) fun _ => rfl
  case vaneFault =>
    rintro ⟨moves, follows, noSlip⟩ fall wrong
    exact exec_indexEdge_moves moves capture
      ((AxisState.edge_checks follows noSlip).trans (AxisState.check_wrongWidth fall wrong))
  case slip =>
    rintro ⟨moves, follows, noSlip⟩ fall right beyond
    exact exec_indexEdge_moves moves capture
      (AxisState.edge_judges follows noSlip fall right (AxisState.judge_slip beyond))
  case corrected =>
    rintro ⟨moves, follows, noSlip⟩ fall right within
    exact exec_indexEdge_moves moves capture
      (AxisState.edge_judges follows noSlip fall right (AxisState.judge_corrected within))
  case ignored =>
    intro moves mode
    have ignores : a.mode.RunsDown ∨ a.mode.Follows ∧ a.slipPending = true := by
      simpa only [AxisMode.RunsDown, AxisMode.Follows, or_assoc] using mode
    exact exec_indexEdge_uncounted moves capture (AxisState.edge_ignored ignores) fun _ => rfl
  case seek => exact fun moves seek => exec_indexEdge_phase moves capture seek (.inl rfl) AxisState.phaseEdge_seek
  case backoff =>
    intro moves backoff fall
    exact exec_indexEdge_phase moves capture backoff (.inr (.inl rfl)) (AxisState.phaseEdge_backoff_fall fall)
  case reference =>
    intro moves approach rise up absent
    have upward : down = false := decide_eq_false (Int.not_lt.mpr (Int.le_of_lt up))
    exact exec_indexEdge_phase moves capture approach (.inr (.inr rfl))
      (AxisState.phaseEdge_approach_reference rise upward absent)
  case phaseStays =>
    rintro moves (⟨backoff, rise⟩ | ⟨approach, other⟩)
    · exact exec_indexEdge_phase moves capture backoff (.inr (.inl rfl)) (AxisState.phaseEdge_backoff_rise rise)
    · have passedBy : e = .fall ∨ down = true ∨ a.reference ≠ none := other.imp_right (.imp_left decide_eq_true)
      exact exec_indexEdge_phase moves capture approach (.inr (.inr rfl))
        (AxisState.phaseEdge_approach_other passedBy)

end Sys2Proof.Machine

/-! How a usage is split into pull and grants: a round of the run pool, the two rounds, and the cut to hold current (R166,
R167, R172). -/

namespace Sys2Proof.Machine

/-! ### One round of the run pool (R167 step 3) -/

theorem shareRound_of_covered {pool : Nat} {ask : PerAxis Nat} (covered : ask.pan + ask.tilt ≤ pool) :
    shareRound pool ask = ask :=
  if_pos covered

theorem shareRound_of_short {pool : Nat} {ask : PerAxis Nat} (short : pool < ask.pan + ask.tilt) :
    shareRound pool ask =
      { pan := pool * ask.pan / (ask.pan + ask.tilt), tilt := pool * ask.tilt / (ask.pan + ask.tilt) } :=
  if_neg (Nat.not_le.mpr short)

/-- An axis alone in its round takes what it asks, or the whole of a pool that is short of it. -/
theorem shareRound_pan_alone (pool ask : Nat) :
    shareRound pool { pan := ask, tilt := 0 } = { pan := min ask pool, tilt := 0 } := by
  rcases Nat.lt_or_ge pool ask with short | covered
  · simp [shareRound_of_short, short, Nat.min_eq_right (Nat.le_of_lt short), Nat.mul_div_cancel _ (Nat.zero_lt_of_lt short)]
  · simp [shareRound_of_covered, covered]

theorem shareRound_tilt_alone (pool ask : Nat) :
    shareRound pool { pan := 0, tilt := ask } = { pan := 0, tilt := min ask pool } := by
  rcases Nat.lt_or_ge pool ask with short | covered
  · simp [shareRound_of_short, short, Nat.min_eq_right (Nat.le_of_lt short), Nat.mul_div_cancel _ (Nat.zero_lt_of_lt short)]
  · simp [shareRound_of_covered, covered]

/-- The proportional parts are rounded down, so together they stay within the pool they are parts of. -/
theorem shareRound_sum_le (pool : Nat) (ask : PerAxis Nat) :
    (shareRound pool ask).pan + (shareRound pool ask).tilt ≤ pool := by
  rcases Nat.lt_or_ge pool (ask.pan + ask.tilt) with short | covered
  · rw [shareRound_of_short short]
    calc pool * ask.pan / (ask.pan + ask.tilt) + pool * ask.tilt / (ask.pan + ask.tilt)
        ≤ (pool * ask.pan + pool * ask.tilt) / (ask.pan + ask.tilt) := Nat.div_add_div_le_add_div ..
      _ = pool * (ask.pan + ask.tilt) / (ask.pan + ask.tilt) := by rw [Nat.mul_add]
      _ = pool := Nat.mul_div_cancel _ (Nat.zero_lt_of_lt short)
  · rwa [shareRound_of_covered covered]

/-! ### The two rounds (R167 step 3) -/

/-- The demand counts the axes alike, or one of them at run current (R164). -/
theorem alike_or_one_running (isRunning : PerAxis Bool) :
    isRunning.pan = isRunning.tilt ∨ (isRunning.pan = true ∧ isRunning.tilt = false) ∨
      (isRunning.pan = false ∧ isRunning.tilt = true) := by
  cases isRunning.pan <;> cases isRunning.tilt <;> simp

section

variable {pool : Nat} {ask : PerAxis Nat} {isRunning : PerAxis Bool}

/-- Axes counted alike share one round, and the other round has no axis in it. -/
theorem sharePool_alike (alike : isRunning.pan = isRunning.tilt) :
    sharePool pool ask isRunning = shareRound pool ask := by
  cases both : isRunning.tilt <;>
    simp [sharePool, poolAfter, alike, both, shareRound_of_covered (ask := { pan := 0, tilt := 0 })]

theorem sharePool_pan_first (pan : isRunning.pan = true) (tilt : isRunning.tilt = false) :
    sharePool pool ask isRunning = { pan := min ask.pan pool, tilt := min ask.tilt (pool - ask.pan) } := by
  simp [sharePool, poolAfter, pan, tilt, shareRound_pan_alone, shareRound_tilt_alone]

theorem sharePool_tilt_first (pan : isRunning.pan = false) (tilt : isRunning.tilt = true) :
    sharePool pool ask isRunning = { pan := min ask.pan (pool - ask.tilt), tilt := min ask.tilt pool } := by
  simp [sharePool, poolAfter, pan, tilt, shareRound_pan_alone, shareRound_tilt_alone]

theorem sharePool_of_covered (covered : ask.pan + ask.tilt ≤ pool) : sharePool pool ask isRunning = ask := by
  rcases alike_or_one_running isRunning with alike | ⟨pan, tilt⟩ | ⟨pan, tilt⟩
  · rw [sharePool_alike alike, shareRound_of_covered covered]
  · rw [sharePool_pan_first pan tilt, Nat.min_eq_left (by omega), Nat.min_eq_left (by omega)]
  · rw [sharePool_tilt_first pan tilt, Nat.min_eq_left (by omega), Nat.min_eq_left (by omega)]

theorem sharePool_sum_le :
    (sharePool pool ask isRunning).pan + (sharePool pool ask isRunning).tilt ≤ pool := by
  rcases alike_or_one_running isRunning with alike | ⟨pan, tilt⟩ | ⟨pan, tilt⟩
  · rw [sharePool_alike alike]
    exact shareRound_sum_le pool ask
  · rw [sharePool_pan_first pan tilt]
    show min ask.pan pool + min ask.tilt (pool - ask.pan) ≤ pool
    omega
  · rw [sharePool_tilt_first pan tilt]
    show min ask.pan (pool - ask.tilt) + min ask.tilt pool ≤ pool
    omega

end

/-! ### The pull factor and the grants (R167) -/

theorem pullFactor_le {share demand : Nat} (within : share ≤ demand) : pullFactor share demand ≤ 1000 := by
  rcases Nat.eq_zero_or_pos demand with absent | demanded
  · simp [pullFactor, absent]
  · rw [pullFactor, if_neg (Nat.ne_of_gt demanded), Nat.mul_comm]
    exact Nat.div_le_of_le_mul (by omega)

section

variable {f : Feed} {st : Settings}

/-- What the two axes get of the run pool, the usage above the base and the emitter share (R167 step 3). -/
def Feed.runShares (f : Feed) (st : Settings) : PerAxis Nat :=
  sharePool (f.usage - st.base - min f.emitterDemand (f.usage - st.base))
    { pan := st.axes.pan.ask, tilt := st.axes.tilt.ask } f.counted

theorem Feed.split_pull :
    (f.split st).pull = pullFactor (min f.emitterDemand (f.usage - st.base)) f.emitterDemand := rfl

theorem Feed.split_grant_cool (cool : f.driverHot = false ∧ f.tripEnd = none) (x : Axis) :
    (f.split st).grant.get x = (st.axes.get x).holdCurrent + (f.runShares st).get x := by
  obtain ⟨notHot, notTripped⟩ := cool
  cases x <;> simp [Feed.split, Feed.isTripped, Feed.runShares, PerAxis.get, notHot, notTripped]

theorem Feed.split_grant_cut (cut : ¬ (f.driverHot = false ∧ f.tripEnd = none)) (x : Axis) :
    (f.split st).grant.get x = (st.axes.get x).holdCurrent := by
  have hotOrTripped : (f.driverHot || f.isTripped) = true := by
    by_cases hot : f.driverHot = true
    · simp [hot]
    · have tripped : f.tripEnd ≠ none := fun absent => cut ⟨Bool.eq_false_iff.mpr hot, absent⟩
      simp [Feed.isTripped, Option.isSome_iff_ne_none.mpr tripped]
  cases x <;> simp only [Feed.split, if_pos hotOrTripped, PerAxis.get]

/-- What a grant adds to hold current is the axis's part of the run pool, unless the grants are cut. -/
theorem Feed.split_got_cool (cool : f.driverHot = false ∧ f.tripEnd = none) (x : Axis) :
    (f.split st).grant.get x - (st.axes.get x).holdCurrent = (f.runShares st).get x := by
  rw [Feed.split_grant_cool cool, Nat.add_sub_cancel_left]

theorem Feed.split_got_cut (cut : ¬ (f.driverHot = false ∧ f.tripEnd = none)) (x : Axis) :
    (f.split st).grant.get x - (st.axes.get x).holdCurrent = 0 := by
  rw [Feed.split_grant_cut cut, Nat.sub_self]

theorem Feed.split_grant_ge_hold (x : Axis) : (st.axes.get x).holdCurrent ≤ (f.split st).grant.get x := by
  by_cases cool : f.driverHot = false ∧ f.tripEnd = none
  · rw [Feed.split_grant_cool cool]
    exact Nat.le_add_right ..
  · exact Nat.le_of_eq (Feed.split_grant_cut cool x).symm

end

/-- Settles O53: the pull factor, the cut to hold current, and the run pool by how its axes are counted. -/
theorem feedSplit : Obligations.FeedSplit := by
  intro f st share pool ask got cool
  refine ⟨?noDemand, ?demand, Feed.split_grant_cut, Feed.split_grant_ge_hold, ?covered, ?alike, ?panFirst, ?tiltFirst,
    ?withinPool, rfl⟩
  case noDemand => exact fun absent => Feed.split_pull.trans (if_pos absent)
  case demand =>
    exact fun demanded => ⟨Feed.split_pull.trans (if_neg (Nat.ne_of_gt demanded)),
      Nat.le_trans (Nat.le_of_eq Feed.split_pull) (pullFactor_le (Nat.min_le_left ..))⟩
  case covered =>
    intro isCool covered x
    have full : f.runShares st = { pan := ask .pan, tilt := ask .tilt } := sharePool_of_covered covered
    calc got x = (f.runShares st).get x := Feed.split_got_cool isCool x
      _ = ask x := by rw [full]; cases x <;> rfl
  case alike =>
    intro isCool alike short x
    have parts : f.runShares st =
        { pan := pool * ask .pan / (ask .pan + ask .tilt), tilt := pool * ask .tilt / (ask .pan + ask .tilt) } :=
      (sharePool_alike alike).trans (shareRound_of_short short)
    calc got x = (f.runShares st).get x := Feed.split_got_cool isCool x
      _ = pool * ask x / (ask .pan + ask .tilt) := by rw [parts]; cases x <;> rfl
  case panFirst =>
    intro isCool pan tilt
    have parts : f.runShares st = { pan := min (ask .pan) pool, tilt := min (ask .tilt) (pool - ask .pan) } :=
      sharePool_pan_first pan tilt
    exact ⟨(Feed.split_got_cool isCool .pan).trans (congrArg PerAxis.pan parts),
      (Feed.split_got_cool isCool .tilt).trans (congrArg PerAxis.tilt parts)⟩
  case tiltFirst =>
    intro isCool pan tilt
    have parts : f.runShares st = { pan := min (ask .pan) (pool - ask .tilt), tilt := min (ask .tilt) pool } :=
      sharePool_tilt_first pan tilt
    exact ⟨(Feed.split_got_cool isCool .tilt).trans (congrArg PerAxis.tilt parts),
      (Feed.split_got_cool isCool .pan).trans (congrArg PerAxis.pan parts)⟩
  case withinPool =>
    by_cases isCool : cool
    · calc got .pan + got .tilt = (f.runShares st).pan + (f.runShares st).tilt :=
            congr (congrArg Nat.add (Feed.split_got_cool isCool .pan)) (Feed.split_got_cool isCool .tilt)
        _ ≤ pool := sharePool_sum_le
    · calc got .pan + got .tilt = 0 + 0 :=
            congr (congrArg Nat.add (Feed.split_got_cut isCool .pan)) (Feed.split_got_cut isCool .tilt)
        _ ≤ pool := Nat.zero_le _

end Sys2Proof.Machine

/-! The device reset by its four ways: the reset line released or held, power-on, and a RESTART that is taken (R179,
R183). -/

namespace Sys2Proof.Machine

variable {s : State} {f : Frame}

/-! ### What a reset forgets (R183) -/

/-- A reset keeps nothing of the state before it but the setup record, the pins and the waiting commands. -/
theorem State.deviceReset_congr {s t : State} (store : s.store = t.store) (pins : s.pins = t.pins)
    (pending : s.pending = t.pending) : s.deviceReset = t.deviceReset := by
  rw [State.deviceReset, State.deviceReset, store, pins, pending]

/-- The frame that asks for a reset is counted, and the reset then clears the count (R10, R179). -/
theorem State.deviceReset_heard (s : State) (f : Frame) : (s.heard f).deviceReset = s.deviceReset :=
  State.deviceReset_congr (s.heard_store f) (s.heard_pins f) (s.heard_pending f)

/-! ### The RESTART (R9, R10) -/

/-- An unconfigured station has no number an origin could echo, and accepts a SETUP or a RESTART sent to 255 (R9,
log 11). -/
theorem accepts_of_unconfigured {k : FrameKind} (kind : k = .setup ∨ k = .restart) (read : s.setup.readDone = true)
    (unconfigured : s.setup.configured = false) (station : s.settings.station = 0) (low : 1 ≤ f.origin.toNat)
    (high : f.origin.toNat ≤ 250) (sentToAll : f.dest.toNat = 255) : s.accepts k f = true := by
  have dest : f.dest = toAll := BitVec.eq_of_toNat_eq sentToAll
  have noEcho : s.isOwnEcho f.origin = false := by simp [State.isOwnEcho, station]
  have origin : f.originIsStation = true := by simp [Frame.originIsStation, low, high]
  simp [State.accepts, read, origin, noEcho, unconfigured, dest, kind]

/-- A RESTART resets the station that accepts it, if it has no payload (R10). -/
theorem exec_restart_of_accepts (accepted : s.accepts .restart f = true) (size : RightSize .restart f) :
    exec (.restart f) s = .next s.deviceReset := by
  have handed : s.receiveRestart f = (s.heard f).deviceReset := by
    rw [State.receiveRestart, State.handOn, if_pos accepted, if_pos (sizeOk_iff.mpr size)]
    rfl
  exact congrArg Host.Outcome.next (handed.trans (s.deviceReset_heard f))

theorem rightSize_restart_of_empty (empty : f.payload = []) : RightSize .restart f := by
  simp [RightSize, FrameKind.lengths, empty]

/-- Settles O3: each of the four ways is `State.deviceReset`, of which the reset line sets its own pin first. -/
theorem deviceResets : Obligations.DeviceResets := by
  refine ⟨fun _ => rfl, fun _ => rfl, fun _ => rfl, ?configured, ?unconfigured⟩
  case configured =>
    rintro s f ⟨addressed, size⟩
    exact exec_restart_of_accepts (accepts_of_addressed addressed) size
  case unconfigured =>
    intro s f read unconfigured station low high sentToAll empty
    exact exec_restart_of_accepts
      (accepts_of_unconfigured (.inr rfl) read unconfigured station low high sentToAll)
      (rightSize_restart_of_empty empty)

end Sys2Proof.Machine

/-! The step that runs a command of the queue: first in, first out. -/

namespace Sys2Proof.Machine

/-- Settles O1: the branch of `step` for a waiting command, with the queue's rest written out. -/
theorem stepRunsFrontCommand : Obligations.StepRunsFrontCommand := by
  intro s c rest front
  calc step s = exec c (s.withRest rest) := by rw [step, front]
    _ = exec c { s with pending := rest } := congrArg (exec c) rfl

end Sys2Proof.Machine
